-- ==== Sys2Proof/Word.lean ====
section
/-! DEFINITION. The word types of the block: byte, wire integers, sample word, payload.
Widths are those of R6, R9, R22, R30 and R100. -/

namespace Sys2Proof

/-- A byte of the RX or TX stream: 8 bits (R6, R9). -/
abbrev Byte := BitVec 8

/-- A wire integer of a set-profile field (R81). -/
abbrev U16 := BitVec 16

/-- A temperature of a telemetry frame, in hundredths of a degree Celsius (R80). -/
abbrev U32 := BitVec 32

/-- A sample word of the Telemetry Window, in 1/200 of a degree Celsius (R30, R108). -/
abbrev Sample := BitVec 33

/-- The flags `err[2:0]`: bit 0 mode, bit 1 runMode, bit 2 stage (R28, R100). -/
abbrev ErrFlags := BitVec 3

/-- The 13 bytes of a telemetry payload, in offset order (R6, R60, R101). -/
abbrev Payload := Vector Byte 13

end Sys2Proof
end

