-- ==== Sys2Proof/Machine/Bytes.lean ====
section
/-! DEFINITION. The wired constants of R6, little-endian packing (R10), and the ranges of defined
enum bytes (R76, R77, R78). Decoder, encoder and meanings all use these. -/

namespace Sys2Proof.Machine

/-- MARK1 (R6, R74). -/
def marker1 : Byte := 0xFA

/-- MARK2 (R6, R74). -/
def marker2 : Byte := 0xAF

/-- TYPE_SETMODE (R6, R75). -/
def typeSetMode : Byte := 1

/-- TYPE_SETPROFILE (R6, R75). -/
def typeSetProfile : Byte := 2

/-- `le16` of R10. -/
def le16 (v : U16) : List Byte := [v.extractLsb' 0 8, v.extractLsb' 8 8]

/-- `le32` of R10. -/
def le32 (v : U32) : List Byte :=
  [v.extractLsb' 0 8, v.extractLsb' 8 8, v.extractLsb' 16 8, v.extractLsb' 24 8]

/-- `u16le` of R10: the byte at the lower offset is the less significant one (R55). -/
def u16le (b0 b1 : Byte) : U16 := b1 ++ b0

/-- `u32le` of R10. -/
def u32le (b0 b1 b2 b3 : Byte) : U32 := b3 ++ b2 ++ b1 ++ b0

/-- The mode byte has a name: 0 to 3 (R76). -/
def modeDefined (v : Byte) : Bool := v ≤ 3#8

/-- The runMode byte has a name: 0 to 2 (R77). -/
def runModeDefined (v : Byte) : Bool := v ≤ 2#8

/-- The stage byte has a name: 0 to 5 (R78). -/
def stageDefined (v : Byte) : Bool := v ≤ 5#8

/-- The operand domain of SENDMODE and of ENC_SETMODE (R110, R175). -/
def modeOperandsDefined (mode runMode : Byte) : Bool := modeDefined mode && runModeDefined runMode

/-- The flags `err[2:0]` of R101: bit 0 mode undefined, bit 1 runMode, bit 2 stage (R192). -/
def errFlags (mode runMode stage : Byte) : ErrFlags :=
  BitVec.ofBool (!stageDefined stage) ++ BitVec.ofBool (!runModeDefined runMode) ++
    BitVec.ofBool (!modeDefined mode)

end Sys2Proof.Machine
end

