-- ==== Sys2Proof/Syntax.lean ====
section
/-! DEFINITION. The decoded record (R100), the instructions (one constructor per row of the opcode
table), the events of R85, and the encodings in which they are presented or written (R86, R89). -/

namespace Sys2Proof

/-- A decoded telemetry record (R100): enum fields as raw wire bytes with validity flags. -/
structure Record where
  mode : Byte
  runMode : Byte
  stage : Byte
  fanOn : Bool
  lampOn : Bool
  temp1 : U32
  temp2 : U32
  err : ErrFlags
deriving DecidableEq, Repr

/-- The instructions: wire frames, events, internal operations, pseudo-operations (R85, R88, R89). -/
inductive Instr
  /-- TELEMETRY: an inbound format T frame (R71). -/
  | telemetry (mode runMode stage fan lamp : Byte) (temp1 temp2 : U32)
  /-- SETMODE: an outbound format M frame (R72). -/
  | setMode (mode runMode : Byte)
  /-- SETPROFILE: an outbound format P frame (R73). -/
  | setProfile (soakTime soakTemp peakTime peakTemp : U16)
  /-- RXB: one received byte (R120). -/
  | rxb (b : Byte)
  /-- RESET (R205). -/
  | reset
  /-- SENDMODE (R170). -/
  | sendMode (mode runMode : Byte)
  /-- SENDPROF (R171). -/
  | sendProf (soakTime soakTemp peakTime peakTemp : U16)
  /-- WCLEAR (R143). -/
  | wclear
  /-- WSNAP (R144). -/
  | wsnap
  /-- SCUR (R156). -/
  | scur
  /-- CONNECT (R168). -/
  | connect
  /-- DISCONNECT (R169). -/
  | disconnect
  /-- DECODE_TELEMETRY (R101). -/
  | decodeTelemetry (p : Payload)
  /-- COMMIT (R165). -/
  | commit (p : Payload)
  /-- SUPDATE (R155). -/
  | supdate (r : Record)
  /-- WAPPEND (R141, R142). -/
  | wappend (x : Sample)
  /-- ENC_TELEMETRY, the test fixture (R112). -/
  | encTelemetry (mode runMode stage fan lamp : Byte) (temp1 temp2 : U32)
  /-- RX: a chunk of received bytes (R88, R125). -/
  | rx (bytes : List Byte)
  /-- RXFRAME: marker and encoded payload (R88). -/
  | rxFrame (mode runMode stage fan lamp : Byte) (temp1 temp2 : U32)
deriving DecidableEq, Repr

/-- The event alphabet: all the events a block instance accepts, and no other (R85). -/
inductive Event
  | reset
  | connect
  | disconnect
  | rxb (b : Byte)
  | sendMode (mode runMode : Byte)
  | sendProf (soakTime soakTemp peakTime peakTemp : U16)
  | wclear
  | wsnap
  | scur
deriving DecidableEq, Repr

/-- The row of the opcode table that an event is (R89). -/
def Event.instr : Event → Instr
  | .reset => .reset
  | .connect => .connect
  | .disconnect => .disconnect
  | .rxb b => .rxb b
  | .sendMode mode runMode => .sendMode mode runMode
  | .sendProf soakTime soakTemp peakTime peakTemp => .sendProf soakTime soakTemp peakTime peakTemp
  | .wclear => .wclear
  | .wsnap => .wsnap
  | .scur => .scur

/-- What the environment presents to the block: the reset pin, the RX byte port and the command port
(R86, D2). -/
inductive Stimulus
  | resetPin
  | rxByte (b : Byte)
  | command (op : BitVec 4) (arg : BitVec 64)
deriving DecidableEq, Repr

/-- An encoding of the opcode table (R89): a port's bits for an event, the bytes of a wire frame for the
rows T, M and P. A wire frame is no event: nothing presents one to the block (R85; log entry 15). -/
inductive Code
  | port (x : Stimulus)
  | wire (bytes : List Byte)
deriving DecidableEq, Repr

/-- Why an encoding is no instruction. -/
inductive DecodeRefusal
  /-- A reserved code on the command port: 0 or 8 to 15 (R84, R86). -/
  | reservedCommand (op : BitVec 4)
  /-- Bytes read as a wire frame that are of none of the three formats (R70). -/
  | noSuchFrame
deriving DecidableEq, Repr

end Sys2Proof
end

