-- ==== Sys2Proof/WellFormed.lean ====
section
/-! DEFINITION. Which instructions are inside the block's contract. -/

namespace Sys2Proof

/-- Operands inside their domains: the enum operands of SENDMODE (R175) and of the SETMODE frame
(R110), and a record whose flags are those of its bytes (R102). Every other operand value is legal
(R80, R81, R101, R120). -/
def Instr.wellFormed : Instr → Bool
  | .telemetry _ _ _ _ _ _ _ => true
  | .setMode mode runMode => Machine.modeOperandsDefined mode runMode
  | .setProfile _ _ _ _ => true
  | .rxb _ => true
  | .reset => true
  | .sendMode mode runMode => Machine.modeOperandsDefined mode runMode
  | .sendProf _ _ _ _ => true
  | .wclear => true
  | .wsnap => true
  | .scur => true
  | .connect => true
  | .disconnect => true
  | .decodeTelemetry _ => true
  | .commit _ => true
  | .supdate r => r.err == Machine.errFlags r.mode r.runMode r.stage
  | .wappend _ => true
  | .encTelemetry _ _ _ _ _ _ _ => true
  | .rx _ => true
  | .rxFrame _ _ _ _ _ _ _ => true

/-- The rows that have an encoding (R89): the events of R85 and the three wire frames. The internal
operations, the fixture ENC_TELEMETRY and the pseudo-operations RX and RXFRAME have none. -/
def Instr.encodable : Instr → Bool
  | .telemetry _ _ _ _ _ _ _ => true
  | .setMode _ _ => true
  | .setProfile _ _ _ _ => true
  | .rxb _ => true
  | .reset => true
  | .sendMode _ _ => true
  | .sendProf _ _ _ _ => true
  | .wclear => true
  | .wsnap => true
  | .scur => true
  | .connect => true
  | .disconnect => true
  | .decodeTelemetry _ => false
  | .commit _ => false
  | .supdate _ => false
  | .wappend _ => false
  | .encTelemetry _ _ _ _ _ _ _ => false
  | .rx _ => false
  | .rxFrame _ _ _ _ _ _ _ => false

end Sys2Proof
end

