-- ==== Sys2Proof/Decode.lean ====
section
/-! DEFINITION. The decoder of what is presented to the block and of wire frames, the encoder, and the
reading of the opcode table's words. Encodings: R71, R72, R73, R86, R89. -/

namespace Sys2Proof

open Machine

/-- The command port (R86). Bits of `cmd_arg` that an operation ignores are not looked at. -/
def decodeCommand (op : BitVec 4) (arg : BitVec 64) : Except DecodeRefusal Event :=
  match op.toNat with
  | 1 => .ok (.sendMode (arg.extractLsb' 0 8) (arg.extractLsb' 8 8))
  | 2 => .ok (.sendProf (arg.extractLsb' 0 16) (arg.extractLsb' 16 16) (arg.extractLsb' 32 16)
      (arg.extractLsb' 48 16))
  | 3 => .ok .wclear
  | 4 => .ok .wsnap
  | 5 => .ok .scur
  | 6 => .ok .connect
  | 7 => .ok .disconnect
  | _ => .error (.reservedCommand op)

/-- The decoder of what is presented to the block: an event of R85 or a refusal, nothing else. -/
def decodePort : Stimulus → Except DecodeRefusal Event
  | .resetPin => .ok .reset
  | .rxByte b => .ok (.rxb b)
  | .command op arg => decodeCommand op arg

/-- A whole wire frame by the patterns of R71, R72 and R73. The formats differ in length (R70, R83):
15 bytes are a telemetry frame, which has no type byte (R75); 5 and 11 bytes are the outbound
frames of type 1 and 2. -/
def decodeFrame : List Byte → Except DecodeRefusal Instr
  | [m1, m2, mode, runMode, stage, fan, lamp, a0, a1, a2, a3, b0, b1, b2, b3] =>
    if m1 = marker1 ∧ m2 = marker2 then
      .ok (.telemetry mode runMode stage fan lamp (u32le a0 a1 a2 a3) (u32le b0 b1 b2 b3))
    else .error .noSuchFrame
  | [m1, m2, ty, mode, runMode] =>
    if m1 = marker1 ∧ m2 = marker2 ∧ ty = typeSetMode then .ok (.setMode mode runMode)
    else .error .noSuchFrame
  | [m1, m2, ty, a0, a1, b0, b1, c0, c1, d0, d1] =>
    if m1 = marker1 ∧ m2 = marker2 ∧ ty = typeSetProfile then
      .ok (.setProfile (u16le a0 a1) (u16le b0 b1) (u16le c0 c1) (u16le d0 d1))
    else .error .noSuchFrame
  | _ => .error .noSuchFrame

/-- The decoder of the opcode table's encodings (R89): total. A port gives only events. -/
def decode : Code → Except DecodeRefusal Instr
  | .port x =>
    match decodePort x with
    | .ok e => .ok e.instr
    | .error why => .error why
  | .wire bytes => decodeFrame bytes

/-- The bytes of a format M frame (R72). -/
def frameM (mode runMode : Byte) : List Byte := [marker1, marker2, typeSetMode, mode, runMode]

/-- The bytes of a format P frame (R73). -/
def frameP (soakTime soakTemp peakTime peakTemp : U16) : List Byte :=
  [marker1, marker2, typeSetProfile] ++ le16 soakTime ++ le16 soakTemp ++ le16 peakTime ++
    le16 peakTemp

/-- The bytes of a format T frame (R71). -/
def frameT (mode runMode stage fan lamp : Byte) (temp1 temp2 : U32) : List Byte :=
  [marker1, marker2, mode, runMode, stage, fan, lamp] ++ le32 temp1 ++ le32 temp2

/-- The encoder: `none` for the rows that have no encoding (R89). The bits of `cmd_arg` that R86 calls
ignored are written as zeros (DESIGN CHOICE, log entry 19). -/
def encode : Instr → Option Code
  | .telemetry mode runMode stage fan lamp t1 t2 =>
      some (.wire (frameT mode runMode stage fan lamp t1 t2))
  | .setMode mode runMode => some (.wire (frameM mode runMode))
  | .setProfile a b c d => some (.wire (frameP a b c d))
  | .rxb b => some (.port (.rxByte b))
  | .reset => some (.port .resetPin)
  | .sendMode mode runMode => some (.port (.command 1 ((0#48 ++ runMode ++ mode : BitVec 64))))
  | .sendProf a b c d => some (.port (.command 2 ((d ++ c ++ b ++ a : BitVec 64))))
  | .wclear => some (.port (.command 3 0))
  | .wsnap => some (.port (.command 4 0))
  | .scur => some (.port (.command 5 0))
  | .connect => some (.port (.command 6 0))
  | .disconnect => some (.port (.command 7 0))
  | .decodeTelemetry _ => none
  | .commit _ => none
  | .supdate _ => none
  | .wappend _ => none
  | .encTelemetry _ _ _ _ _ _ _ => none
  | .rx _ => none
  | .rxFrame _ _ _ _ _ _ _ => none

/-- The first `n` bytes of a word whose bit 0 is the least significant bit of the first byte. -/
def wordBytes : Nat → Nat → List Byte
  | 0, _ => []
  | n + 1, w => BitVec.ofNat 8 w :: wordBytes n (w / 256)

/-- The bytes start with the marker of R74. -/
def startsWithMarker (bytes : List Byte) : Bool := bytes.take 2 == [marker1, marker2]

/-- Wire order of a frame word: first byte in bits 7..0, or, where only that order gives the marker,
first byte most significant as in the table's match and mask (R89; log entry 8). -/
def wireOrder (bytes : List Byte) : List Byte :=
  if !startsWithMarker bytes && startsWithMarker bytes.reverse then bytes.reverse else bytes

/-- The encoding that a word of the opcode table stands for. The table does not say which port a word
is on: no bits are the reset pin; one byte is a command code where it is one of the defined codes 1
to 7, and a received byte otherwise (DESIGN CHOICE, log entry 7); more bytes are a wire frame. -/
def tableCode (nbits w : Nat) : Code :=
  if nbits = 0 then .port .resetPin
  else if nbits ≤ 8 then
    if 1 ≤ w % 256 ∧ w % 256 ≤ 7 then .port (.command (BitVec.ofNat 4 w) 0)
    else .port (.rxByte (BitVec.ofNat 8 w))
  else .wire (wireOrder (wordBytes (nbits / 8) w))

/-- The instruction the decoder reads from a word of the opcode table. -/
def decodeTableWord (nbits w : Nat) : Option Instr :=
  match decode (tableCode nbits w) with
  | .ok i => some i
  | .error _ => none

end Sys2Proof
end

