-- ==== Sys2Proof/Config.lean ====
section
/-! DEFINITION. What an implementation fixes: the parameters of R7 and R31.
They are inputs of the step function. Their values in the reset state are opaque constants:
nothing can be proved of them but that C is at least 1 (log entry 4). -/

namespace Sys2Proof

/-- ENUM_POLICY (R7): what becomes of a complete frame with an undefined enum byte (R105, R106). -/
inductive EnumPolicy
  /-- The frame is accepted and the byte is shown as unknown (R105). -/
  | unknown
  /-- The frame is not committed (R106). -/
  | reject
deriving DecidableEq, Repr, Inhabited

/-- BOOL_RULE (R7): the reading of the fan and lamp bytes; the spec decides it (R103). -/
inductive BoolRule
  /-- Zero is false, every other byte is true. -/
  | nonzeroTrue
deriving DecidableEq, Repr, Inhabited

/-- The parameters of R31. C = 0 is no legal parameter value (R147), so no `Params` has it. -/
structure Params where
  /-- C, the window capacity. -/
  capacity : Nat
  capacity_pos : 0 < capacity
  enumPolicy : EnumPolicy
  boolRule : BoolRule
deriving DecidableEq, Repr

/-- The open value of C, less 1: C itself is any number from 1 on (R7). -/
opaque Config.capacityLess1 : Nat

/-- The open value of ENUM_POLICY (R7). -/
opaque Config.enumPolicy : EnumPolicy

/-- The parameters of an implementation about which nothing is known (R7, R31; log entry 4). -/
def Config.params : Params where
  capacity := Config.capacityLess1 + 1
  capacity_pos := Nat.succ_pos _
  enumPolicy := Config.enumPolicy
  boolRule := .nonzeroTrue

end Sys2Proof
end

