-- ==== Sys2Proof/Machine/State.lean ====
section
/-! DEFINITION. The block's state (R20), the output items (R11), the effect of one step (R8), the machine
handed to the host, the reasons a step can stop, and the state after reset (R38). -/

namespace Sys2Proof.Machine

/-- LINK (R26). -/
inductive Link
  | down
  | up
deriving DecidableEq, Repr

/-- RS, the resynchronizer's state register (R21): three values and no fourth. -/
inductive ResyncPhase
  | seekingMarker1
  | seekingMarker2
  | accumulatingFrame
deriving DecidableEq, Repr

/-- The five session data registers S_MODE, S_RUNMODE, S_STAGE, S_FAN, S_LAMP (R27). -/
structure Session where
  mode : Byte
  runMode : Byte
  stage : Byte
  fan : Bool
  lamp : Bool
deriving DecidableEq, Repr

/-- `name(mode, v)` of R102. -/
inductive ModeName
  | standby
  | heating
  | holding
  | cooling
  | unknown (v : Byte)
deriving DecidableEq, Repr

/-- `name(runMode, v)` of R102. -/
inductive RunModeName
  | off
  | profile
  | hold
  | unknown (v : Byte)
deriving DecidableEq, Repr

/-- `name(stage, v)` of R102. -/
inductive StageName
  | standby
  | soakRamp
  | soakHold
  | peakRamp
  | peakHold
  | cool
  | unknown (v : Byte)
deriving DecidableEq, Repr

/-- What SCUR shows of a latched session (R156). -/
structure SessionView where
  mode : ModeName
  runMode : RunModeName
  stage : StageName
  fanOn : Bool
  lampOn : Bool
deriving DecidableEq, Repr

/-- The result of a host operation, `RESP(v)` (R11). -/
inductive Response
  /-- `Ok`. -/
  | ok
  /-- `SendError::NotConnected` (R186). -/
  | sendErrorNotConnected
  /-- The value `NotConnected` of SCUR (R156); no error (C9). -/
  | notConnected
  /-- SCUR with a session (R156). -/
  | session (v : SessionView)
  /-- WSNAP: pairs of index and sample word (R144). -/
  | snapshot (entries : List (Nat × Sample))
deriving DecidableEq, Repr

/-- The names of decode errors: one (R185). -/
inductive DecodeErrorCode
  | invalidEnumValue
deriving DecidableEq, Repr

/-- An output item (R11). -/
inductive Output
  /-- One byte written to the transport. -/
  | tx (b : Byte)
  /-- One committed record delivered to the subscriber (R167). -/
  | telem (r : Record)
  /-- A rejected frame (R185). -/
  | decodeError (code : DecodeErrorCode) (err : ErrFlags)
  /-- The result of a host operation. -/
  | resp (r : Response)
deriving DecidableEq, Repr

/-- The block's two exceptions (R185, R186). -/
inductive ExceptionCause
  | invalidEnumValue (err : ErrFlags)
  | sendNotConnected
deriving DecidableEq, Repr

/-- The state of one block instance: the tuple of R20 and nothing else. The codec, the decoder and the
subscriber have no field here (R20, R36). -/
structure Block where
  /-- LINK (R26). -/
  link : Link
  /-- RS (R21). -/
  rs : ResyncPhase
  /-- ACC: the bytes that hold a value, in offset order; CNT is their number (R22, R23, R33). -/
  acc : List Byte
  /-- The session registers; S_VALID is whether they hold a value (R27, R33). -/
  session : Option Session
  /-- W: the samples that hold a value, oldest first; W_CNT is their number (R29, R30, R140). -/
  win : List Sample
deriving DecidableEq, Repr

/-- What one step of the block gives (R8): the new state and the ordered list of output items. -/
structure Effect where
  block : Block
  outputs : List Output
deriving DecidableEq, Repr

/-- What a codec function returned when it was executed as an instruction of its own (log entry 2). -/
inductive CodecResult
  | record (r : Record)
  | bytes (bs : List Byte)
deriving DecidableEq, Repr

/-- What stands around the block in this model and is no part of the block's state: no function of the
block is given any of it. -/
structure Surroundings where
  /-- The observer's trace: the output items emitted so far, in order, kept outside the block's state
  (R11, R36 (3); log entry 1). -/
  out : List Output
  /-- The caller's copy of what the last codec instruction returned (log entry 2). -/
  codec : Option CodecResult
  /-- The environment's: what it presents next, oldest first (R8, R62; log entry 3). -/
  pending : List Stimulus
  /-- The host's test slot: the bytes of one wire frame row of the opcode table that the next step is to
  execute by itself. Filled by `withFetchWord` alone (log entry 15). -/
  slot : Option (List Byte)
deriving DecidableEq, Repr

/-- The machine handed to the host: the block (`toBlock`, the whole of R20), the parameters (R31), and
what stands around the block (`toSurroundings`). -/
structure State extends Block, Surroundings where
  /-- C, ENUM_POLICY, BOOL_RULE: inputs of the step, written by nothing (R31). -/
  params : Params
deriving DecidableEq, Repr

/-- Reasons the machine stops. There are none: no behaviour is stuck (spec/93), and the two exceptions
of R185 and R186 leave the block ready for the next event (R196; log entry 18). -/
inductive Fault
deriving DecidableEq, Repr

/-- Reasons the model declines an input; a claim says nothing of a run that contains one. -/
inductive Refusal
  /-- Raised by exec's arm of an instruction that has no meaning yet. Safe. No arm raises it. -/
  | notModelled (mnemonic : String)
  /-- Raised by SENDMODE and SETMODE with `mode > 3` or `runMode > 2`: "the model refuses it" (R175,
  R110). Safe. -/
  | operandDomain
  /-- Raised by step for a reserved command code (R84), or for bytes in the host's test slot that match
  no wire format (log entry 14). Safe. -/
  | undecodable (why : DecodeRefusal)
deriving DecidableEq, Repr

/-- The block after reset (R38, R205). The parameters are not reset and are an implementation's own
(log entry 4); what stands around the block starts empty (log entries 1, 2, 3, 15). -/
def State.reset : State where
  params := Config.params
  link := .down
  rs := .seekingMarker1
  acc := []
  session := none
  win := []
  out := []
  codec := none
  pending := []
  slot := none

end Sys2Proof.Machine
end

