-- ==== Sys2Proof/Machine/Operands.lean ====
section
/-! DEFINITION. How operands and registers are read: `MemRead` on a payload (R11), the register views
of R20, the enum names (R102), the temperature views (R104, R149), the numeric codes (R187, D18). -/

namespace Sys2Proof.Machine

/-- `MemRead(ACC, off, 1)` of R11. -/
def memRead1 (p : Payload) (off : Nat) (h : off < 13 := by decide) : Byte := p[off]

/-- `MemRead(ACC, off, 4)` of R11: little-endian (R55), at any offset (R56). -/
def memRead4 (p : Payload) (off : Nat) (h : off + 3 < 13 := by decide) : U32 :=
  u32le p[off] p[off + 1] p[off + 2] p[off + 3]

/-- The 13 bytes at offsets 0 to 12 of a byte sequence (R124). Offsets past its end are never read
where it has 13 bytes or more. -/
def payloadOf (bs : List Byte) : Payload :=
  #v[bs.getD 0 0, bs.getD 1 0, bs.getD 2 0, bs.getD 3 0, bs.getD 4 0, bs.getD 5 0, bs.getD 6 0,
    bs.getD 7 0, bs.getD 8 0, bs.getD 9 0, bs.getD 10 0, bs.getD 11 0, bs.getD 12 0]

/-- CNT (R23). -/
def Block.cnt (s : Block) : Nat := s.acc.length

/-- ACC[i]; `none` where it holds no value (R22, R33). -/
def Block.accRead (s : Block) (i : Nat) : Option Byte := s.acc[i]?

/-- S_VALID (R27). -/
def Block.sValid (s : Block) : Bool := s.session.isSome

/-- S_MODE (R27). -/
def Block.sMode (s : Block) : Option Byte := s.session.map Session.mode

/-- S_RUNMODE (R27). -/
def Block.sRunMode (s : Block) : Option Byte := s.session.map Session.runMode

/-- S_STAGE (R27). -/
def Block.sStage (s : Block) : Option Byte := s.session.map Session.stage

/-- S_FAN (R27). -/
def Block.sFan (s : Block) : Option Bool := s.session.map Session.fan

/-- S_LAMP (R27). -/
def Block.sLamp (s : Block) : Option Bool := s.session.map Session.lamp

/-- W_CNT (R29). -/
def Block.winCount (s : Block) : Nat := s.win.length

/-- W[i]; `none` where it holds no value (R30, R33). -/
def Block.winRead (s : Block) (i : Nat) : Option Sample := s.win[i]?

/-- The position register (RS, CNT) of R24. -/
def Block.position (s : Block) : ResyncPhase × Nat := (s.rs, s.cnt)

/-- The TX stream: the bytes handed to the transport, in order (R52). -/
def txStream (out : List Output) : List Byte :=
  out.filterMap fun o => match o with
    | .tx b => some b
    | _ => none

/-- `name(mode, v)` of R102. -/
def modeName (v : Byte) : ModeName :=
  if v = 0 then .standby else if v = 1 then .heating else if v = 2 then .holding
  else if v = 3 then .cooling else .unknown v

/-- `name(runMode, v)` of R102. -/
def runModeName (v : Byte) : RunModeName :=
  if v = 0 then .off else if v = 1 then .profile else if v = 2 then .hold else .unknown v

/-- `name(stage, v)` of R102. -/
def stageName (v : Byte) : StageName :=
  if v = 0 then .standby else if v = 1 then .soakRamp else if v = 2 then .soakHold
  else if v = 3 then .peakRamp else if v = 4 then .peakHold else if v = 5 then .cool
  else .unknown v

/-- What SCUR shows of the session registers (R156). -/
def sessionView (x : Session) : SessionView :=
  ⟨modeName x.mode, runModeName x.runMode, stageName x.stage, x.fan, x.lamp⟩

/-- `tempC(x)` of R104: degrees Celsius, exact. A view for the host; no rule depends on it. -/
def tempC (x : U32) : Rat := (x.toNat : Rat) / 100

/-- The temperature a sample word denotes (R108, R149): degrees Celsius, exact. -/
def sampleC (x : Sample) : Rat := (x.toNat : Rat) / 200

/-- A host's rendering of a temperature that the spec calls conformant: within 0.005 degrees of the
exact value (R115; spec/93, row 5; FLOAT_VIEW itself is outside the block, log entry 16). -/
def renderingConforms (exactC shownC : Rat) : Bool :=
  decide (exactC - shownC ≤ 1 / 200) && decide (shownC - exactC ≤ 1 / 200)

/-- The encoding of RS (R21, D18). -/
def ResyncPhase.code : ResyncPhase → BitVec 2
  | .seekingMarker1 => 0
  | .seekingMarker2 => 1
  | .accumulatingFrame => 2

/-- The encoding of LINK (R26, D18). -/
def Link.code : Link → BitVec 1
  | .down => 0
  | .up => 1

/-- `err_code[1:0]` of an output item (R187): 0 no error, 1 InvalidEnumValue, 2 NotConnected. R187 does
not say which code goes with the TELEM item of an accepted frame whose `err` is not 0, which surfaces
InvalidEnumValue under UNKNOWN (R167, R185): the model gives every TELEM item 0, since no exception is
raised (R105). DESIGN CHOICE, log entry 24. -/
def errCode : Output → BitVec 2
  | .decodeError .invalidEnumValue _ => 1
  | .resp .sendErrorNotConnected => 2
  | .tx _ => 0
  | .telem _ => 0
  | .resp .ok => 0
  | .resp .notConnected => 0
  | .resp (.session _) => 0
  | .resp (.snapshot _) => 0

end Sys2Proof.Machine
end

