-- ==== Sys2Proof/Machine/Flags.lean ====
section
/-! DEFINITION. The transient flags of a decoded record: the bool readings (R103) and the use of
`err[2:0]` (R28). The computation of `err` itself is `errFlags` in Bytes.lean (R101). -/

namespace Sys2Proof.Machine

/-- `bool(v)` under BOOL_RULE (R103). For bytes 2 to 255 this is the spec's own decision (D6). -/
def boolOf (rule : BoolRule) (v : Byte) : Bool :=
  match rule with
  | .nonzeroTrue => v != 0

/-- Some enum byte of the record is undefined: `rec.err != 0`, the cause of InvalidEnumValue (R185). -/
def hasUndefined (r : Record) : Bool := r.err != 0

/-- The frame is not committed: undefined byte and ENUM_POLICY = REJECT (R106, R165). -/
def rejects (p : Params) (r : Record) : Bool := hasUndefined r && p.enumPolicy == .reject

end Sys2Proof.Machine
end

