-- ==== Sys2Proof/Machine/Ops.lean ====
section
/-! DEFINITION. The named operations: the writes of each register group (R32), the fresh instance (R38),
emitting output items (R11), raising an exception (R185, R186), one operation after another, applying
an effect of the block to the machine, and taking the next encoding to execute. -/

namespace Sys2Proof.Machine

/-- `RS <- v`. -/
def Block.setPhase (x : Block) (v : ResyncPhase) : Block := { x with rs := v }

/-- `ACC[CNT] <- b; CNT <- CNT + 1` (R123). -/
def Block.accStore (x : Block) (b : Byte) : Block := { x with acc := x.acc ++ [b] }

/-- `ACC <- empty; CNT <- 0` (R122, R124). -/
def Block.accClear (x : Block) : Block := { x with acc := [] }

/-- The write of the six session registers together (R27, R155). -/
def Block.latch (x : Block) (v : Session) : Block := { x with session := some v }

/-- The write of the window (R141, R142, R143). -/
def Block.setWindow (x : Block) (w : List Sample) : Block := { x with win := w }

/-- A freshly created instance, with the given LINK (R38, R168, R169, R205). -/
def freshInstance (l : Link) : Block := ⟨l, .seekingMarker1, [], none, []⟩

/-- The effect of an operation that emits nothing. -/
def Block.silent (x : Block) : Effect := ⟨x, []⟩

/-- `emit X(info)` of R11. -/
def Block.emit (x : Block) (o : Output) : Effect := ⟨x, [o]⟩

/-- `respond v` of R11. -/
def Block.respond (x : Block) (r : Response) : Effect := x.emit (.resp r)

/-- `emit TX(x)` for each byte in order, nothing between them (R170, R172). -/
def Block.transmit (x : Block) (bytes : List Byte) : Effect := ⟨x, bytes.map .tx⟩

/-- The output item that an exception is (R11): the block has no vector, no handler and saves
nothing (R193, R195). -/
def exceptionItem : ExceptionCause → Output
  | .invalidEnumValue err => .decodeError .invalidEnumValue err
  | .sendNotConnected => .resp .sendErrorNotConnected

/-- Taking an exception: `raise E(info)` of R11. It emits the item and writes nothing else; the
operation ends with it. There is no return: the block is ready for the next event at once (R196). -/
def Block.takeException (x : Block) (e : ExceptionCause) : Effect := x.emit (exceptionItem e)

/-- One operation after another: the items of the second follow those of the first (R11). -/
def Effect.andThen (e : Effect) (f : Block → Effect) : Effect :=
  ⟨(f e.block).block, e.outputs ++ (f e.block).outputs⟩

/-- An effect of the block on the machine: the block's new state, and the items at the end of the
observer's trace (R11). -/
def State.apply (s : State) (e : Effect) : State :=
  { s with toBlock := e.block, out := s.out ++ e.outputs }

/-- The outcome of the block on the machine. -/
def State.applyOutcome (s : State) :
    Host.Outcome Effect Fault Refusal → Host.Outcome State Fault Refusal
  | .next e => .next (s.apply e)
  | .fault r => .fault r
  | .refused r => .refused r

/-- The caller's copy of what a codec instruction returned; the block is not touched (R109; log entry
2). -/
def State.setCodec (s : State) (v : CodecResult) : State := { s with codec := some v }

/-- The transport delivers a chunk: its bytes are presented in order, one RXB each, after what is
already presented; an empty chunk presents nothing (R51, R125). -/
def State.feed (s : State) (bytes : List Byte) : State :=
  { s with pending := s.pending ++ bytes.map .rxByte }

/-- The next encoding to execute and the machine in which it is executed: the host's test slot if it is
filled (log entry 15), else the next presented event (R8, R62); `none` when there is neither. -/
def fetch (s : State) : Option (Code × State) :=
  match s.slot with
  | some bytes => some (.wire bytes, { s with slot := none })
  | none =>
    match s.pending with
    | [] => none
    | x :: rest => some (.port x, { s with pending := rest })

end Sys2Proof.Machine
end

