-- ==== Sys2Proof/Machine/Codec.lean ====
section
/-! DEFINITION. The Frame Codec: pure functions without state (R109), and the rows of the opcode table
that are these functions: DECODE_TELEMETRY, ENC_TELEMETRY, and the outbound frames SETMODE and
SETPROFILE (log entries 2 and 11). -/

namespace Sys2Proof.Machine

/-- `DECODE_TELEMETRY(p)` (R101), total on all payloads. -/
def decodePayload (rule : BoolRule) (p : Payload) : Record :=
  let mode := memRead1 p 0
  let runMode := memRead1 p 1
  let stage := memRead1 p 2
  { mode := mode
    runMode := runMode
    stage := stage
    fanOn := boolOf rule (memRead1 p 3)
    lampOn := boolOf rule (memRead1 p 4)
    temp1 := memRead4 p 5
    temp2 := memRead4 p 9
    err := errFlags mode runMode stage }

/-- `AVG(rec)` (R108): the exact 33-bit sum, in units of 1/200 of a degree. -/
def sampleOf (r : Record) : Sample := r.temp1.setWidth 33 + r.temp2.setWidth 33

/-- `ENC_SETMODE` (R110), on its domain. -/
def encodeSetMode (mode runMode : Byte) : List Byte := frameM mode runMode

/-- `ENC_SETPROFILE` (R111). -/
def encodeSetProfile (soakTime soakTemp peakTime peakTemp : U16) : List Byte :=
  frameP soakTime soakTemp peakTime peakTemp

/-- `ENC_TELEMETRY` (R112): 13 bytes, no marker. -/
def encodePayload (mode runMode stage fan lamp : Byte) (temp1 temp2 : U32) : List Byte :=
  [mode, runMode, stage, fan, lamp] ++ le32 temp1 ++ le32 temp2

/-- DECODE_TELEMETRY as an instruction: it returns the record to its caller; the block keeps nothing of
it (R20, R101, R109). -/
def execDecodeTelemetry (p : Payload) (s : State) : Host.Outcome State Fault Refusal :=
  .next (s.setCodec (.record (decodePayload s.params.boolRule p)))

/-- ENC_TELEMETRY as an instruction: it returns the 13 bytes (R112). -/
def execEncTelemetry (mode runMode stage fan lamp : Byte) (temp1 temp2 : U32) (s : State) :
    Host.Outcome State Fault Refusal :=
  .next (s.setCodec (.bytes (encodePayload mode runMode stage fan lamp temp1 temp2)))

/-- SETMODE: the outbound frame that `ENC_SETMODE` returns (R110). It reads no LINK and puts nothing
on TX: only SENDMODE and SENDPROF reach TX (R50). Operands outside the domain are not presentable
(R110, R175). -/
def execSetMode (mode runMode : Byte) (s : State) : Host.Outcome State Fault Refusal :=
  if modeOperandsDefined mode runMode then
    .next (s.setCodec (.bytes (encodeSetMode mode runMode)))
  else .refused .operandDomain

/-- SETPROFILE: the outbound frame that `ENC_SETPROFILE` returns (R111). -/
def execSetProfile (soakTime soakTemp peakTime peakTemp : U16) (s : State) :
    Host.Outcome State Fault Refusal :=
  .next (s.setCodec (.bytes (encodeSetProfile soakTime soakTemp peakTime peakTemp)))

end Sys2Proof.Machine
end

