-- ==== Sys2Proof/Machine/LinkHost.lean ====
section
/-! DEFINITION. RESET (R205), the link events CONNECT (R168) and DISCONNECT (R169), and the two sends
SENDMODE (R170, R175) and SENDPROF (R171). -/

namespace Sys2Proof.Machine

/-- RESET (R205): a freshly created instance, LINK Down, no output. -/
def resetBlock : Effect := (freshInstance .down).silent

/-- CONNECT (R168): a fresh instance with LINK Up, whatever LINK was. -/
def connectBlock : Effect := (freshInstance .up).respond .ok

/-- DISCONNECT (R169); it also stands for every transport failure (R173). -/
def disconnectBlock : Effect := (freshInstance .down).respond .ok

/-- A send of a whole command frame (R170, R171): rejected while LINK = Down, else transmitted
contiguously (R172) and answered `Ok`. It writes no register. -/
def sendFrame (bytes : List Byte) (x : Block) : Effect :=
  match x.link with
  | .down => x.takeException .sendNotConnected
  | .up => (x.transmit bytes).andThen fun y => y.respond .ok

/-- SENDMODE (R170). Operands outside the domain: "the model refuses it" (R175). -/
def sendMode (mode runMode : Byte) (x : Block) : Host.Outcome Effect Fault Refusal :=
  if modeOperandsDefined mode runMode then .next (sendFrame (encodeSetMode mode runMode) x)
  else .refused .operandDomain

/-- SENDPROF (R171). -/
def sendProf (soakTime soakTemp peakTime peakTemp : U16) (x : Block) : Effect :=
  sendFrame (encodeSetProfile soakTime soakTemp peakTime peakTemp) x

/-- RESET as an instruction (R205): the parameters stay (R31). -/
def execReset (s : State) : Host.Outcome State Fault Refusal := .next (s.apply resetBlock)

/-- CONNECT as an instruction (R168). -/
def execConnect (s : State) : Host.Outcome State Fault Refusal := .next (s.apply connectBlock)

/-- DISCONNECT as an instruction (R169). -/
def execDisconnect (s : State) : Host.Outcome State Fault Refusal := .next (s.apply disconnectBlock)

/-- SENDMODE as an instruction (R170, R175). -/
def execSendMode (mode runMode : Byte) (s : State) : Host.Outcome State Fault Refusal :=
  s.applyOutcome (sendMode mode runMode s.toBlock)

/-- SENDPROF as an instruction (R171). -/
def execSendProf (soakTime soakTemp peakTime peakTemp : U16) (s : State) :
    Host.Outcome State Fault Refusal :=
  .next (s.apply (sendProf soakTime soakTemp peakTime peakTemp s.toBlock))

end Sys2Proof.Machine
end

