-- ==== Sys2Proof/Machine/Session.lean ====
section
/-! DEFINITION. The Controller Session State: SUPDATE (R155) and SCUR (R156). -/

namespace Sys2Proof.Machine

/-- What SUPDATE latches of a record: raw bytes and the two flags, no temperature, no `err` (R155). -/
def sessionOf (r : Record) : Session := ⟨r.mode, r.runMode, r.stage, r.fanOn, r.lampOn⟩

/-- `SUPDATE rec` (R155): a pure latch, no transition check (R157). -/
def updateSession (r : Record) (x : Block) : Block := x.latch (sessionOf r)

/-- SUPDATE as an instruction (R155). -/
def execSUpdate (r : Record) (s : State) : Host.Outcome State Fault Refusal :=
  .next (s.apply (updateSession r s.toBlock).silent)

/-- The answer of SCUR (R156). -/
def currentSession (x : Block) : Response :=
  match x.session with
  | none => .notConnected
  | some v => .session (sessionView v)

/-- SCUR (R156): reads the session, writes nothing, does not read LINK. -/
def showSession (x : Block) : Effect := x.respond (currentSession x)

/-- SCUR as an instruction (R156). -/
def execSCur (s : State) : Host.Outcome State Fault Refusal := .next (s.apply (showSession s.toBlock))

end Sys2Proof.Machine
end

