-- ==== Sys2Proof/Machine/Window.lean ====
section
/-! DEFINITION. The Telemetry Window: WAPPEND (R141, R142), WCLEAR (R143), WSNAP (R144). -/

namespace Sys2Proof.Machine

/-- The window after an append, on the view of R140: at the next index while there is room (R141);
otherwise `win[1 .. C-1] ++ [x]` (R142). -/
def appended (capacity : Nat) (win : List Sample) (x : Sample) : List Sample :=
  if win.length < capacity then win ++ [x] else (win.take capacity).drop 1 ++ [x]

/-- `WAPPEND v`: no output, no exception; eviction is silent (R141, R142). -/
def appendSample (capacity : Nat) (v : Sample) (x : Block) : Block :=
  x.setWindow (appended capacity x.win v)

/-- WAPPEND as an instruction (R141, R142). -/
def execWAppend (v : Sample) (s : State) : Host.Outcome State Fault Refusal :=
  .next (s.apply (appendSample s.params.capacity v s.toBlock).silent)

/-- WCLEAR (R143): it does not read LINK. -/
def clearWindow (x : Block) : Effect := (x.setWindow []).respond .ok

/-- WCLEAR as an instruction (R143). -/
def execWClear (s : State) : Host.Outcome State Fault Refusal := .next (s.apply (clearWindow s.toBlock))

/-- The pairs of index and sample that WSNAP shows: dense, oldest first (R144, R145). -/
def snapshotOf (win : List Sample) : List (Nat × Sample) := (List.range win.length).zip win

/-- WSNAP (R144): reads the whole window in one step, writes nothing. -/
def showWindow (x : Block) : Effect := x.respond (.snapshot (snapshotOf x.win))

/-- WSNAP as an instruction (R144). -/
def execWSnap (s : State) : Host.Outcome State Fault Refusal := .next (s.apply (showWindow s.toBlock))

end Sys2Proof.Machine
end

