-- ==== Sys2Proof/Machine/Commit.lean ====
section
/-! DEFINITION. Frame commit (R165). -/

namespace Sys2Proof.Machine

/-- A record that is accepted: session, window, TELEM, in the order of R165 and R166. -/
def acceptRecord (capacity : Nat) (r : Record) (x : Block) : Effect :=
  (appendSample capacity (sampleOf r) (updateSession r x)).emit (.telem r)

/-- `COMMIT(p)` (R165): decode, policy, and the fan-out of an accepted record. It does not read LINK. -/
def commitPayload (prm : Params) (p : Payload) (x : Block) : Effect :=
  let r := decodePayload prm.boolRule p
  if rejects prm r then x.takeException (.invalidEnumValue r.err)
  else acceptRecord prm.capacity r x

/-- COMMIT as an instruction (R165; log entry 12). -/
def execCommit (p : Payload) (s : State) : Host.Outcome State Fault Refusal :=
  .next (s.apply (commitPayload s.params p s.toBlock))

end Sys2Proof.Machine
end

