-- ==== Sys2Proof/Machine/Resync.lean ====
section
/-! DEFINITION. The Stream Resynchronizer: RXB (R120 to R124), a run of RXB steps, which is what the rows
RX (R125), RXFRAME (R88) and TELEMETRY (R71, R130) stand for. -/

namespace Sys2Proof.Machine

/-- A byte in SeekingMarker1 (R121). -/
def seekMarker1 (b : Byte) (x : Block) : Block :=
  if b = marker1 then x.setPhase .seekingMarker2 else x

/-- A byte in SeekingMarker2 (R122). -/
def seekMarker2 (b : Byte) (x : Block) : Block :=
  if b = marker2 then (x.setPhase .accumulatingFrame).accClear
  else if b = marker1 then x
  else x.setPhase .seekingMarker1

/-- The 13th byte is stored (R124): the resynchronizer is reset, then the frame is committed. -/
def completeFrame (prm : Params) (x : Block) : Effect :=
  commitPayload prm (payloadOf x.acc) (x.accClear.setPhase .seekingMarker1)

/-- A byte in AccumulatingFrame (R123): every value is data (R128). -/
def accumulate (prm : Params) (b : Byte) (x : Block) : Effect :=
  if x.cnt ≤ 11 then (x.accStore b).silent else completeFrame prm (x.accStore b)

/-- `RXB b` (R120): with LINK = Down the byte is dropped. -/
def receiveByte (prm : Params) (b : Byte) (x : Block) : Effect :=
  match x.link with
  | .down => x.silent
  | .up =>
    match x.rs with
    | .seekingMarker1 => (seekMarker1 b x).silent
    | .seekingMarker2 => (seekMarker2 b x).silent
    | .accumulatingFrame => accumulate prm b x

/-- A run of RXB steps, one for each byte, in order, each on the state the one before left; for no bytes
there is no step (R51, R125). -/
def receiveBytes (prm : Params) : List Byte → Block → Effect
  | [], x => x.silent
  | b :: bs, x => (receiveByte prm b x).andThen (receiveBytes prm bs)

/-- RXB (R120). -/
def execRxb (b : Byte) (s : State) : Host.Outcome State Fault Refusal :=
  .next (s.apply (receiveByte s.params b s.toBlock))

/-- RX (R88, R125): where the RXB steps of its expansion lead. It is no step: `step` never executes RX, a
chunk reaches the block by `State.feed`, one RXB a step (log entry 9). -/
def execRx (bytes : List Byte) (s : State) : Host.Outcome State Fault Refusal :=
  .next (s.apply (receiveBytes s.params bytes s.toBlock))

/-- RXFRAME (R88): `RX FA AF`, then `RX` of the bytes of `ENC_TELEMETRY`. It is no step either (log entry
9). -/
def execRxFrame (mode runMode stage fan lamp : Byte) (temp1 temp2 : U32) (s : State) :
    Host.Outcome State Fault Refusal :=
  .next (s.apply ((receiveBytes s.params [marker1, marker2] s.toBlock).andThen
    (receiveBytes s.params (encodePayload mode runMode stage fan lamp temp1 temp2))))

/-- TELEMETRY: the 15 bytes of a format T frame arrive on RX (R71; log entry 10). Where the automaton
is seeking a marker they are recognised and committed (R130, R165); elsewhere they are what R123 and
R120 make of them. -/
def execTelemetry (mode runMode stage fan lamp : Byte) (temp1 temp2 : U32) (s : State) :
    Host.Outcome State Fault Refusal :=
  .next (s.apply (receiveBytes s.params (frameT mode runMode stage fan lamp temp1 temp2) s.toBlock))

end Sys2Proof.Machine
end

