-- ==== Sys2Proof/Machine/Dispatch.lean ====
section
/-! DEFINITION. exec: one arm per constructor of Instr. -/

namespace Sys2Proof.Machine

def exec (i : Instr) (s : State) : Host.Outcome State Fault Refusal :=
  match i with
  | .telemetry mode runMode stage fan lamp temp1 temp2 => Sys2Proof.Machine.execTelemetry mode runMode stage fan lamp temp1 temp2 s
  | .setMode mode runMode => Sys2Proof.Machine.execSetMode mode runMode s
  | .setProfile soakTime soakTemp peakTime peakTemp => Sys2Proof.Machine.execSetProfile soakTime soakTemp peakTime peakTemp s
  | .rxb b => Sys2Proof.Machine.execRxb b s
  | .reset => Sys2Proof.Machine.execReset s
  | .sendMode mode runMode => Sys2Proof.Machine.execSendMode mode runMode s
  | .sendProf soakTime soakTemp peakTime peakTemp => Sys2Proof.Machine.execSendProf soakTime soakTemp peakTime peakTemp s
  | .wclear => Sys2Proof.Machine.execWClear s
  | .wsnap => Sys2Proof.Machine.execWSnap s
  | .scur => Sys2Proof.Machine.execSCur s
  | .connect => Sys2Proof.Machine.execConnect s
  | .disconnect => Sys2Proof.Machine.execDisconnect s
  | .decodeTelemetry p => Sys2Proof.Machine.execDecodeTelemetry p s
  | .commit p => Sys2Proof.Machine.execCommit p s
  | .supdate r => Sys2Proof.Machine.execSUpdate r s
  | .wappend x => Sys2Proof.Machine.execWAppend x s
  | .encTelemetry mode runMode stage fan lamp temp1 temp2 => Sys2Proof.Machine.execEncTelemetry mode runMode stage fan lamp temp1 temp2 s
  | .rx bytes => Sys2Proof.Machine.execRx bytes s
  | .rxFrame mode runMode stage fan lamp temp1 temp2 => Sys2Proof.Machine.execRxFrame mode runMode stage fan lamp temp1 temp2 s

end Sys2Proof.Machine
end

