-- ==== Sys2Proof/Machine/Step.lean ====
section
/-! DEFINITION. One step of the machine: the next presented event is decoded and executed (R8). -/

namespace Sys2Proof.Machine

/-- The step function: one presented event of R85, which is one RXB for a received byte (R51). With no
event presented the block holds its state (R203). The host's test slot alone can make a step execute a
row that is no event (log entry 15). -/
def step (s : State) : Host.Outcome State Fault Refusal :=
  match fetch s with
  | none => .next s
  | some (c, t) =>
    match decode c with
    | .ok i => exec i t
    | .error why => .refused (.undecodable why)

/-- `s` with a table word as what the next step executes: an event is presented first (log entry 3), a
wire frame is put in the host's test slot (log entry 15). -/
def State.withFetchWord (s : State) (nbits w : Nat) : State :=
  match tableCode nbits w with
  | .port x => { s with pending := x :: s.pending, slot := none }
  | .wire bytes => { s with slot := some bytes }

end Sys2Proof.Machine
end

