-- ==== Sys2Proof/Machine/BlockStep.lean ====
section
/-! DEFINITION. The step function of the block as R8 has it, over the state of R20 and the events of R85
alone. -/

namespace Sys2Proof.Machine

/-- `step(params, state, event) = (state', outputs)` of R8. Refused only for the operands of SENDMODE
outside their domain (R175). -/
def blockStep (prm : Params) (x : Block) : Event → Host.Outcome Effect Fault Refusal
  | .reset => .next resetBlock
  | .connect => .next connectBlock
  | .disconnect => .next disconnectBlock
  | .rxb b => .next (receiveByte prm b x)
  | .sendMode mode runMode => sendMode mode runMode x
  | .sendProf soakTime soakTemp peakTime peakTemp =>
      .next (sendProf soakTime soakTemp peakTime peakTemp x)
  | .wclear => .next (clearWindow x)
  | .wsnap => .next (showWindow x)
  | .scur => .next (showSession x)

end Sys2Proof.Machine
end

