-- ==== Sys2Proof/Machine/System.lean ====
section
/-! DEFINITION. Several instances, one per connection, with nothing shared (R37, R201). -/

namespace Sys2Proof.Machine

/-- A step of the instance number `k`; the other instances are not read and not written (R37). With no
such instance nothing happens. -/
def stepInstance (k : Nat) (instances : List State) : Host.Outcome (List State) Fault Refusal :=
  match instances[k]? with
  | none => .next instances
  | some s =>
    match step s with
    | .next t => .next (instances.set k t)
    | .fault r => .fault r
    | .refused r => .refused r

end Sys2Proof.Machine
end

