-- ==== Sys2Proof/Safety.lean ====
section
/-! DEFINITION. The terms claims use: the invariants of R34, the registers at their reset values (R38),
the items a step emitted, sequences of events, streams of frames and noise (R133). -/

namespace Sys2Proof.Machine

/-- Invariant 1 of R34: outside AccumulatingFrame the buffer is empty. -/
abbrev State.InvBufferIdle (s : State) : Prop := s.rs ≠ .accumulatingFrame → s.cnt = 0

/-- Invariant 2 of R34. -/
abbrev State.InvCount (s : State) : Prop := s.cnt ≤ 12

/-- Invariant 3 of R34. -/
abbrev State.InvWindow (s : State) : Prop := s.winCount ≤ s.params.capacity

/-- Invariant 4 of R34: while Down everything is as after reset. -/
abbrev State.InvDown (s : State) : Prop :=
  s.link = .down → s.rs = .seekingMarker1 ∧ s.cnt = 0 ∧ s.sValid = false ∧ s.winCount = 0

/-- Invariant 5 of R34: under REJECT a latched session has defined enum bytes. -/
abbrev State.InvSession (s : State) : Prop :=
  s.params.enumPolicy = .reject → ∀ x ∈ s.session,
    x.mode ≤ 3#8 ∧ x.runMode ≤ 2#8 ∧ x.stage ≤ 5#8

/-- Invariant 6 of R34: every sample is at most 2^33 - 2. -/
abbrev State.InvSamples (s : State) : Prop := s.win.all (fun x => x.toNat ≤ 2 ^ 33 - 2) = true

/-- The six invariants of R34. -/
abbrev State.Inv (s : State) : Prop :=
  s.InvBufferIdle ∧ s.InvCount ∧ s.InvWindow ∧ s.InvDown ∧ s.InvSession ∧ s.InvSamples

/-- Every register of R20 at its reset value (R38), but LINK, which is `l`. -/
def State.HoldsResetValues (s : State) (l : Link) : Prop :=
  s.link = l ∧ s.rs = .seekingMarker1 ∧ s.cnt = 0 ∧ (∀ i, s.accRead i = none) ∧
    s.sValid = false ∧ s.sMode = none ∧ s.sRunMode = none ∧ s.sStage = none ∧ s.sFan = none ∧
    s.sLamp = none ∧ s.winCount = 0 ∧ ∀ i, s.winRead i = none

/-- The items that leading from `s` to `t` emitted (R11). -/
def emitted (s t : State) : List Output := t.out.drop s.out.length

/-- TELEM or DECODE_ERROR: the item of one completed frame (R189). -/
def isFrameItem : Output → Bool
  | .telem _ => true
  | .decodeError _ _ => true
  | .tx _ => false
  | .resp _ => false

/-- The item of an exception (R185, R186). -/
def isExceptionItem : Output → Bool
  | .decodeError _ _ => true
  | .resp .sendErrorNotConnected => true
  | .resp .ok => false
  | .resp .notConnected => false
  | .resp (.session _) => false
  | .resp (.snapshot _) => false
  | .telem _ => false
  | .tx _ => false

/-- The outcome with its next state changed by `f`. -/
def mapNext (f : State → State) : Host.Outcome State Fault Refusal → Host.Outcome State Fault Refusal
  | .next s => .next (f s)
  | .fault r => .fault r
  | .refused r => .refused r

/-- A sequence of instructions, stopping at the first that gives no next state. -/
def execAll : List Instr → State → Host.Outcome State Fault Refusal
  | [], s => .next s
  | i :: is, s =>
    match exec i s with
    | .next t => execAll is t
    | .fault r => .fault r
    | .refused r => .refused r

/-- `n` steps of the machine, stopping at the first that gives no next state. -/
def stepN : Nat → State → Host.Outcome State Fault Refusal
  | 0, s => .next s
  | n + 1, s =>
    match step s with
    | .next t => stepN n t
    | .fault r => .fault r
    | .refused r => .refused r

/-- The event empties the window (R32). -/
def clearsWindow : Event → Bool
  | .wclear => true
  | .connect => true
  | .disconnect => true
  | .reset => true
  | .rxb _ => false
  | .sendMode _ _ => false
  | .sendProf _ _ _ _ => false
  | .wsnap => false
  | .scur => false

/-- The sample words of the TELEM items, in order (R108, R149). -/
def telemSamples (out : List Output) : List Sample :=
  out.filterMap fun o => match o with
    | .telem r => some (sampleOf r)
    | _ => none

/-- One of the nine events of R85. -/
def isEvent : Instr → Bool
  | .rxb _ => true
  | .reset => true
  | .sendMode _ _ => true
  | .sendProf _ _ _ _ => true
  | .wclear => true
  | .wsnap => true
  | .scur => true
  | .connect => true
  | .disconnect => true
  | .telemetry _ _ _ _ _ _ _ => false
  | .setMode _ _ => false
  | .setProfile _ _ _ _ => false
  | .decodeTelemetry _ => false
  | .commit _ => false
  | .supdate _ => false
  | .wappend _ => false
  | .encTelemetry _ _ _ _ _ _ _ => false
  | .rx _ => false
  | .rxFrame _ _ _ _ _ _ _ => false

/-- SENDMODE or SENDPROF (R170, R171). -/
def isSend : Instr → Bool
  | .sendMode _ _ => true
  | .sendProf _ _ _ _ => true
  | .rxb _ => false
  | .reset => false
  | .wclear => false
  | .wsnap => false
  | .scur => false
  | .connect => false
  | .disconnect => false
  | .telemetry _ _ _ _ _ _ _ => false
  | .setMode _ _ => false
  | .setProfile _ _ _ _ => false
  | .decodeTelemetry _ => false
  | .commit _ => false
  | .supdate _ => false
  | .wappend _ => false
  | .encTelemetry _ _ _ _ _ _ _ => false
  | .rx _ => false
  | .rxFrame _ _ _ _ _ _ _ => false

/-- Instructions that may complete a frame: RXB and what is made of it, and COMMIT itself. -/
def mayCommit : Instr → Bool
  | .rxb _ => true
  | .rx _ => true
  | .rxFrame _ _ _ _ _ _ _ => true
  | .telemetry _ _ _ _ _ _ _ => true
  | .commit _ => true
  | .reset => false
  | .sendMode _ _ => false
  | .sendProf _ _ _ _ => false
  | .wclear => false
  | .wsnap => false
  | .scur => false
  | .connect => false
  | .disconnect => false
  | .setMode _ _ => false
  | .setProfile _ _ _ _ => false
  | .decodeTelemetry _ => false
  | .supdate _ => false
  | .wappend _ => false
  | .encTelemetry _ _ _ _ _ _ _ => false

/-- The bytes that an instruction receives on RX, in order (R71, R88, R120). -/
def receivedBytes : Instr → List Byte
  | .rxb b => [b]
  | .rx bytes => bytes
  | .rxFrame mode runMode stage fan lamp t1 t2 =>
      [marker1, marker2] ++ encodePayload mode runMode stage fan lamp t1 t2
  | .telemetry mode runMode stage fan lamp t1 t2 => frameT mode runMode stage fan lamp t1 t2
  | .commit _ => []
  | .reset => []
  | .sendMode _ _ => []
  | .sendProf _ _ _ _ => []
  | .wclear => []
  | .wsnap => []
  | .scur => []
  | .connect => []
  | .disconnect => []
  | .setMode _ _ => []
  | .setProfile _ _ _ _ => []
  | .decodeTelemetry _ => []
  | .supdate _ => []
  | .wappend _ => []
  | .encTelemetry _ _ _ _ _ _ _ => []

/-- Executing `i` in `s` completes a frame whose 13 bytes are `p`: `i` is the commit of `p` itself, or one
of the bytes it receives arrives with LINK Up in AccumulatingFrame as the 13th byte of `p` (R124). -/
def CompletesFrame (i : Instr) (s : State) (p : Payload) : Prop :=
  i = .commit p ∨ ∃ (before after : List Byte) (b : Byte) (u : State),
    receivedBytes i = before ++ b :: after ∧ exec (.rx before) s = .next u ∧ u.link = .up ∧
    u.rs = .accumulatingFrame ∧ u.cnt = 12 ∧ p.toList = u.acc ++ [b]

/-- No `FA` immediately followed by `AF` (R133). -/
abbrev NoMarker (bytes : List Byte) : Prop := ¬ [marker1, marker2] <:+: bytes

/-- Noise `n0`, then frames, each followed by its noise (R133). -/
def frameStream (n0 : List Byte) (frames : List (Payload × List Byte)) : List Byte :=
  n0 ++ frames.flatMap fun f => marker1 :: marker2 :: (f.1.toList ++ f.2)

end Sys2Proof.Machine
end

