-- ==== Sys2Proof/Certificates/Slice0/Obligations.lean ====
section
/-! DEFINITION. The statements for the provers. Each docstring names the rule of spec/ it formalises,
or says what of it is the model's own choice and names the log entry. -/

open Sys2Proof Sys2Proof.Machine

/-! ## Reset and link -/

/-- R38: the reset state holds the table's values, and so do the states after RESET, DISCONNECT and
(with LINK Up) CONNECT. -/
def Obligations.ResetStateHoldsSpecValues : Prop :=
  State.reset.HoldsResetValues .down ∧
  ∀ s : State,
    (∃ t, exec .reset s = .next t ∧ t.HoldsResetValues .down) ∧
    (∃ t, exec .connect s = .next t ∧ t.HoldsResetValues .up) ∧
    (∃ t, exec .disconnect s = .next t ∧ t.HoldsResetValues .down)

/-- R205: RESET makes a fresh instance at any time, emits nothing and leaves the parameters alone. -/
def Obligations.ResetMakesFreshInstance : Prop :=
  ∀ s : State, exec .reset s = .next
    { s with link := .down, rs := .seekingMarker1, acc := [], session := none, win := [] }

/-- R168: CONNECT from either link state. -/
def Obligations.ConnectMakesFreshInstance : Prop :=
  ∀ s : State, exec .connect s = .next
    { s with link := .up, rs := .seekingMarker1, acc := [], session := none, win := [],
             out := s.out ++ [.resp .ok] }

/-- R169: DISCONNECT discards the instance; while Down it changes nothing; afterwards bytes are dropped
and sends are rejected. -/
def Obligations.DisconnectDiscardsInstance : Prop :=
  ∀ s : State, ∃ t : State,
    t = { s with link := .down, rs := .seekingMarker1, acc := [], session := none, win := [],
                 out := s.out ++ [.resp .ok] } ∧
    exec .disconnect s = .next t ∧
    (s.Inv → s.link = .down → t = { s with out := s.out ++ [.resp .ok] }) ∧
    (∀ b, exec (.rxb b) t = .next t) ∧
    (∀ a b c d, exec (.sendProf a b c d) t =
      .next { t with out := t.out ++ [.resp .sendErrorNotConnected] }) ∧
    (∀ m r : Byte, m ≤ 3#8 → r ≤ 2#8 → exec (.sendMode m r) t =
      .next { t with out := t.out ++ [.resp .sendErrorNotConnected] })

/-- R206: RESET, DISCONNECT and CONNECT differ only in LINK, and RESET responds nothing. -/
def Obligations.ResetConnectDisconnectDifferInLink : Prop :=
  ∀ s : State, ∃ t : State, exec .reset s = .next t ∧ t.out = s.out ∧ t.HoldsResetValues .down ∧
    exec .disconnect s = .next { t with out := s.out ++ [.resp .ok] } ∧
    exec .connect s = .next { t with link := .up, out := s.out ++ [.resp .ok] }

/-! ## Sends -/

/-- R170: SENDMODE inside its domain. -/
def Obligations.SendModeTransmitsOrIsRejected : Prop :=
  ∀ (s : State) (m r : Byte), m ≤ 3#8 → r ≤ 2#8 →
    (s.link = .up → exec (.sendMode m r) s = .next { s with
      out := s.out ++ [.tx 0xFA, .tx 0xAF, .tx 0x01, .tx m, .tx r, .resp .ok] }) ∧
    (s.link = .down → exec (.sendMode m r) s = .next { s with
      out := s.out ++ [.resp .sendErrorNotConnected] })

/-- R171: SENDPROF, any operands. -/
def Obligations.SendProfTransmitsOrIsRejected : Prop :=
  ∀ (s : State) (a b c d : U16),
    (s.link = .up → exec (.sendProf a b c d) s = .next { s with
      out := s.out ++ [.tx 0xFA, .tx 0xAF, .tx 0x02,
        .tx (a.extractLsb' 0 8), .tx (a.extractLsb' 8 8),
        .tx (b.extractLsb' 0 8), .tx (b.extractLsb' 8 8),
        .tx (c.extractLsb' 0 8), .tx (c.extractLsb' 8 8),
        .tx (d.extractLsb' 0 8), .tx (d.extractLsb' 8 8), .resp .ok] }) ∧
    (s.link = .down → exec (.sendProf a b c d) s = .next { s with
      out := s.out ++ [.resp .sendErrorNotConnected] })

/-- R175: SENDMODE is refused exactly outside `mode` 0 to 3, `runMode` 0 to 2. -/
def Obligations.SendModeRefusedExactlyOutsideDomain : Prop :=
  ∀ (s : State) (m r : Byte),
    exec (.sendMode m r) s = .refused .operandDomain ↔ 3#8 < m ∨ 2#8 < r

/-- R195: what a rejected send leaves. -/
def Obligations.RejectedSendLeavesStateUnchanged : Prop :=
  ∀ (i : Instr) (s : State), isSend i = true → i.wellFormed = true → s.link = .down →
    exec i s = .next { s with out := s.out ++ [.resp .sendErrorNotConnected] }

/-- R186: the send error is raised by a send presented while Down, and by nothing else, and it is then
the only effect. -/
def Obligations.SendErrorExactlyForSendsWhileDown : Prop :=
  ∀ (i : Instr) (s t : State), exec i s = .next t →
    (Output.resp .sendErrorNotConnected ∈ emitted s t ↔ isSend i = true ∧ s.link = .down) ∧
    (Output.resp .sendErrorNotConnected ∈ emitted s t →
      t = { s with out := s.out ++ [.resp .sendErrorNotConnected] })

/-- Derived from R50 and R52: a TX byte is emitted only by a send, and only while Up. -/
def Obligations.TransmitsOnlyInSendsWhileUp : Prop :=
  ∀ (i : Instr) (s t : State) (b : Byte), exec i s = .next t → Output.tx b ∈ emitted s t →
    isSend i = true ∧ s.link = .up

/-- Derived from R63 and R158: a send and a received byte commute on every register, on the TX stream
and on the frame items. -/
def Obligations.SendsCommuteWithReceivedBytes : Prop :=
  ∀ (i : Instr) (b : Byte) (s t u : State), isSend i = true →
    execAll [i, .rxb b] s = .next t → execAll [.rxb b, i] s = .next u →
    u = { t with out := u.out } ∧ txStream u.out = txStream t.out ∧
    (emitted s u).filter isFrameItem = (emitted s t).filter isFrameItem

/-! ## Window -/

/-- R143. -/
def Obligations.WClearEmptiesWindow : Prop :=
  ∀ s : State, exec .wclear s = .next { s with win := [], out := s.out ++ [.resp .ok] }

/-- R144: WSNAP answers the pairs (i, W[i]) for i below W_CNT, in order, and writes nothing. -/
def Obligations.WSnapShowsWindowInOrder : Prop :=
  ∀ s : State, ∃ entries : List (Nat × Sample),
    exec .wsnap s = .next { s with out := s.out ++ [.resp (.snapshot entries)] } ∧
    entries.length = s.winCount ∧ entries.map Prod.fst = List.range s.winCount ∧
    ∀ i, entries[i]? = (s.winRead i).map fun x => (i, x)

/-- R141 (not full) and R142 (full). -/
def Obligations.WAppendAddsOrEvicts : Prop :=
  ∀ (s : State) (x : Sample),
    (s.winCount < s.params.capacity →
      exec (.wappend x) s = .next { s with win := s.win ++ [x] }) ∧
    (s.winCount = s.params.capacity →
      exec (.wappend x) s = .next { s with win := s.win.drop 1 ++ [x] })

/-- R147: after `n` appends since a clear the window holds the last `min(n, C)` words in append order,
for WAPPEND by itself and for every sequence of events, where the appends are the committed frames (one
TELEM item each, R149) and the clear is WCLEAR, CONNECT, DISCONNECT or RESET; C is at least 1; no
instruction takes W_CNT above C. -/
def Obligations.WindowHoldsLastSamples : Prop :=
  (∀ (s : State) (xs : List Sample), ∃ t : State,
    execAll (.wclear :: xs.map .wappend) s = .next t ∧
    t = { s with win := xs.drop (xs.length - s.params.capacity), out := s.out ++ [.resp .ok] } ∧
    t.winCount = min xs.length s.params.capacity) ∧
  (∀ (c : Event) (es : List Event) (s : State), clearsWindow c = true →
    (∀ e ∈ es, clearsWindow e = false ∧ e.instr.wellFormed = true) → ∃ (t : State) (xs : List Sample),
      execAll ((c :: es).map Event.instr) s = .next t ∧ xs = telemSamples (emitted s t) ∧
      t.win = xs.drop (xs.length - s.params.capacity) ∧
      t.winCount = min xs.length s.params.capacity) ∧
  (∀ p : Params, 1 ≤ p.capacity) ∧ State.reset.winCount ≤ State.reset.params.capacity ∧
  ∀ (i : Instr) (s t : State), s.winCount ≤ s.params.capacity → exec i s = .next t →
    t.winCount ≤ t.params.capacity

/-- R146: two WSNAP with events between them that commit no frame and are none of WCLEAR, CONNECT,
DISCONNECT, RESET answer the same. -/
def Obligations.SnapshotsRepeatWithoutAppend : Prop :=
  ∀ (is : List Instr) (s t : State),
    (∀ i ∈ is, isEvent i = true ∧ i ≠ .wclear ∧ i ≠ .connect ∧ i ≠ .disconnect ∧ i ≠ .reset) →
    execAll is s = .next t → (∀ r, Output.telem r ∉ emitted s t) →
    ∃ entries, exec .wsnap s = .next { s with out := s.out ++ [.resp (.snapshot entries)] } ∧
      exec .wsnap t = .next { t with out := t.out ++ [.resp (.snapshot entries)] }

/-! ## Session -/

/-- R155. -/
def Obligations.SUpdateLatchesRecord : Prop :=
  ∀ (s : State) (r : Record), exec (.supdate r) s = .next
    { s with session := some ⟨r.mode, r.runMode, r.stage, r.fanOn, r.lampOn⟩ }

/-- R156, with the names of R102 (their values are in EnumNamesFollowWireValues). With LINK Down the
answer is NotConnected, by invariant 4 of R34. -/
def Obligations.SCurAnswersLastSession : Prop :=
  ∀ s : State,
    (s.session = none →
      exec .scur s = .next { s with out := s.out ++ [.resp .notConnected] }) ∧
    (s.InvDown → s.link = .down →
      exec .scur s = .next { s with out := s.out ++ [.resp .notConnected] }) ∧
    ∀ x, s.session = some x → exec .scur s = .next { s with out := s.out ++ [.resp (.session
      ⟨modeName x.mode, runModeName x.runMode, stageName x.stage, x.fan, x.lamp⟩)] }

/-- R102: the names of the wire values, `Unknown(v)` elsewhere, and the err bits. -/
def Obligations.EnumNamesFollowWireValues : Prop :=
  (modeName 0 = .standby ∧ modeName 1 = .heating ∧ modeName 2 = .holding ∧ modeName 3 = .cooling) ∧
  (runModeName 0 = .off ∧ runModeName 1 = .profile ∧ runModeName 2 = .hold) ∧
  (stageName 0 = .standby ∧ stageName 1 = .soakRamp ∧ stageName 2 = .soakHold ∧
    stageName 3 = .peakRamp ∧ stageName 4 = .peakHold ∧ stageName 5 = .cool) ∧
  (∀ v : Byte, 4#8 ≤ v → modeName v = .unknown v) ∧
  (∀ v : Byte, 3#8 ≤ v → runModeName v = .unknown v) ∧
  (∀ v : Byte, 6#8 ≤ v → stageName v = .unknown v) ∧
  ∀ (rule : BoolRule) (p : Payload),
    let r := decodePayload rule p
    (r.err.getLsbD 0 = true ↔ modeName r.mode = .unknown r.mode) ∧
    (r.err.getLsbD 1 = true ↔ runModeName r.runMode = .unknown r.runMode) ∧
    (r.err.getLsbD 2 = true ↔ stageName r.stage = .unknown r.stage)

/-- R158: the session changes only with a committed frame (a TELEM item; SUPDATE is its part), CONNECT,
DISCONNECT and RESET. -/
def Obligations.SessionChangesOnlyByCommitOrLink : Prop :=
  ∀ (i : Instr) (s t : State), exec i s = .next t → t.session ≠ s.session →
    (∃ r, Output.telem r ∈ emitted s t) ∨ (∃ r, i = .supdate r) ∨ i = .connect ∨
      i = .disconnect ∨ i = .reset

/-! ## Codec -/

/-- R101, its fields and flags. That the record is found in the field `codec` is the model's choice (log
entry 2). The fan and lamp readings of bytes 2 to 255 are the spec's decision D6 (R103). -/
def Obligations.DecodeTelemetryReadsFields : Prop :=
  ∀ (s : State) (p : Payload), ∃ r : Record,
    exec (.decodeTelemetry p) s = .next { s with codec := some (.record r) } ∧
    r.mode = p[0] ∧ r.runMode = p[1] ∧ r.stage = p[2] ∧
    (r.fanOn = true ↔ p[3] ≠ 0) ∧ (r.lampOn = true ↔ p[4] ≠ 0) ∧
    r.temp1.toNat = p[5].toNat + 256 * p[6].toNat + 65536 * p[7].toNat + 16777216 * p[8].toNat ∧
    r.temp2.toNat = p[9].toNat + 256 * p[10].toNat + 65536 * p[11].toNat + 16777216 * p[12].toNat ∧
    r.err.getLsbD 0 = decide (3 < p[0].toNat) ∧ r.err.getLsbD 1 = decide (2 < p[1].toNat) ∧
    r.err.getLsbD 2 = decide (5 < p[2].toNat)

/-- R112: the fixture's 13 bytes. The field `codec` is the model's choice (log entry 2). -/
def Obligations.EncTelemetryLaysOutFields : Prop :=
  ∀ (s : State) (mode runMode stage fan lamp : Byte) (t1 t2 : U32),
    exec (.encTelemetry mode runMode stage fan lamp t1 t2) s = .next { s with
      codec := some (.bytes [mode, runMode, stage, fan, lamp,
        t1.extractLsb' 0 8, t1.extractLsb' 8 8, t1.extractLsb' 16 8, t1.extractLsb' 24 8,
        t2.extractLsb' 0 8, t2.extractLsb' 8 8, t2.extractLsb' 16 8, t2.extractLsb' 24 8]) }

/-- R110 on its domain. That the row SETMODE is this function, with its value in `codec`, is the
model's reading (log entries 2 and 11); so is its refusal outside the domain (log entry 13). -/
def Obligations.SetModeFrameBytes : Prop :=
  ∀ (s : State) (m r : Byte),
    (m ≤ 3#8 → r ≤ 2#8 → exec (.setMode m r) s = .next { s with
      codec := some (.bytes [0xFA, 0xAF, 0x01, m, r]) }) ∧
    (3#8 < m ∨ 2#8 < r → exec (.setMode m r) s = .refused .operandDomain)

/-- R111. That the row SETPROFILE is this function, with its value in `codec`, is the model's reading
(log entries 2 and 11). -/
def Obligations.SetProfileFrameBytes : Prop :=
  ∀ (s : State) (a b c d : U16), exec (.setProfile a b c d) s = .next { s with
    codec := some (.bytes [0xFA, 0xAF, 0x02,
      a.extractLsb' 0 8, a.extractLsb' 8 8, b.extractLsb' 0 8, b.extractLsb' 8 8,
      c.extractLsb' 0 8, c.extractLsb' 8 8, d.extractLsb' 0 8, d.extractLsb' 8 8]) }

/-- R113: both directions of the round trip; the 13 bytes come back exactly when the fan and lamp bytes are
0 or 1, and a fan or lamp byte of 2 or more comes back as 1. The reading of fan and lamp bytes 2 to 255 is
the spec's decision D6 (R103). -/
def Obligations.PayloadRoundTrip : Prop :=
  (∀ (rule : BoolRule) (mode runMode stage fan lamp : Byte) (t1 t2 : U32),
    (fan = 0 ∨ fan = 1) → (lamp = 0 ∨ lamp = 1) →
    decodePayload rule (payloadOf (encodePayload mode runMode stage fan lamp t1 t2)) =
      ⟨mode, runMode, stage, decide (fan = 1), decide (lamp = 1), t1, t2,
        errFlags mode runMode stage⟩ ∧
    (mode ≤ 3#8 → runMode ≤ 2#8 → stage ≤ 5#8 → errFlags mode runMode stage = 0)) ∧
  ∀ (rule : BoolRule) (p : Payload),
    let r := decodePayload rule p
    let bytes := encodePayload r.mode r.runMode r.stage (if r.fanOn then 1 else 0)
      (if r.lampOn then 1 else 0) r.temp1 r.temp2
    (bytes = p.toList ↔ p[3] ≤ 1#8 ∧ p[4] ≤ 1#8) ∧
    (2#8 ≤ p[3] → r.fanOn = true ∧ bytes[3]? = some 1#8) ∧
    (2#8 ≤ p[4] → r.lampOn = true ∧ bytes[4]? = some 1#8)

/-- R108: the sample word is the exact sum, cannot overflow 33 bits, and denotes the average. -/
def Obligations.SampleIsExactAverage : Prop :=
  ∀ r : Record,
    (sampleOf r).toNat = r.temp1.toNat + r.temp2.toNat ∧ (sampleOf r).toNat ≤ 2 ^ 33 - 2 ∧
    sampleC (sampleOf r) = (tempC r.temp1 + tempC r.temp2) / 2

/-- R187: the numeric codes; 3 is never produced. R187 leaves open the code of a TELEM item with err not 0
under UNKNOWN: that it is 0 is the model's choice (log entry 24). -/
def Obligations.ErrorCodesOfOutputs : Prop :=
  ∀ o : Output,
    (errCode o = 1 ↔ ∃ e, o = .decodeError .invalidEnumValue e) ∧
    (errCode o = 2 ↔ o = .resp .sendErrorNotConnected) ∧
    (errCode o = 0 ↔ isExceptionItem o = false) ∧ errCode o ≠ 3

/-! ## Commit and exceptions -/

/-- R165, where the window is within its capacity (invariant 3 of R34). -/
def Obligations.CommitFollowsEnumPolicy : Prop :=
  ∀ (s : State) (p : Payload) (r : Record), s.winCount ≤ s.params.capacity →
    r = decodePayload s.params.boolRule p →
    (r.err ≠ 0 → s.params.enumPolicy = .reject → exec (.commit p) s = .next { s with
      out := s.out ++ [.decodeError .invalidEnumValue r.err] }) ∧
    (r.err = 0 ∨ s.params.enumPolicy = .unknown → exec (.commit p) s = .next { s with
      session := some ⟨r.mode, r.runMode, r.stage, r.fanOn, r.lampOn⟩
      win := (if s.winCount < s.params.capacity then s.win else s.win.drop 1) ++ [sampleOf r]
      out := s.out ++ [.telem r] })

/-- R193: what a rejected frame leaves. -/
def Obligations.RejectedFrameLeavesOnlyError : Prop :=
  ∀ (s : State) (b : Byte) (p : Payload), s.link = .up → s.rs = .accumulatingFrame → s.cnt = 12 →
    p.toList = s.acc ++ [b] → s.params.enumPolicy = .reject →
    (decodePayload s.params.boolRule p).err ≠ 0 →
    exec (.rxb b) s = .next { s with
      rs := .seekingMarker1, acc := [],
      out := s.out ++ [.decodeError .invalidEnumValue (decodePayload s.params.boolRule p).err] }

/-- R194: what an accepted frame with undefined enum bytes leaves: raw bytes latched, sample appended,
TELEM with err. -/
def Obligations.UnknownEnumFrameIsCommitted : Prop :=
  ∀ (s : State) (b : Byte) (p : Payload) (r : Record), s.link = .up → s.rs = .accumulatingFrame →
    s.cnt = 12 → s.winCount ≤ s.params.capacity → p.toList = s.acc ++ [b] →
    s.params.enumPolicy = .unknown → r = decodePayload s.params.boolRule p → r.err ≠ 0 →
    exec (.rxb b) s = .next { s with
      rs := .seekingMarker1, acc := [],
      session := some ⟨p[0], p[1], p[2], r.fanOn, r.lampOn⟩
      win := (if s.winCount < s.params.capacity then s.win else s.win.drop 1) ++ [sampleOf r]
      out := s.out ++ [.telem r] }

/-- Derived from R185 and R167, where CNT is at most 12 (invariant 2 of R34): a DECODE_ERROR item comes only
from a completed frame, only under REJECT, with the frame's err, which is not 0; a TELEM item is the
record of a completed frame, and under REJECT its err is 0. -/
def Obligations.DecodeErrorOnlyUnderReject : Prop :=
  ∀ (i : Instr) (s t : State), s.InvCount → exec i s = .next t →
    (∀ c e, Output.decodeError c e ∈ emitted s t → s.params.enumPolicy = .reject ∧ e ≠ 0 ∧
      ∃ p, CompletesFrame i s p ∧ e = (decodePayload s.params.boolRule p).err) ∧
    ∀ r, Output.telem r ∈ emitted s t → (s.params.enumPolicy = .reject → r.err = 0) ∧
      ∃ p, CompletesFrame i s p ∧ r = decodePayload s.params.boolRule p

/-- R191: at most one exception in one step of an event, of the kind the event can raise, and at most
one frame item. -/
def Obligations.AtMostOneExceptionPerEvent : Prop :=
  ∀ (i : Instr) (s t : State), isEvent i = true → exec i s = .next t →
    ((emitted s t).filter isExceptionItem).length ≤ 1 ∧
    ((emitted s t).filter isFrameItem).length ≤ 1 ∧
    (∀ c e, Output.decodeError c e ∈ emitted s t → ∃ b, i = .rxb b) ∧
    (Output.resp .sendErrorNotConnected ∈ emitted s t → isSend i = true)

/-! ## Resynchronizer -/

/-- R120 (Down) and the seven rows of R130 (R121, R122, R123, R124). The last row's frame is committed
in the same step, with the resynchronizer already reset. -/
def Obligations.RxbFollowsTransitionTable : Prop :=
  ∀ (s : State) (b : Byte),
    (s.link = .down → exec (.rxb b) s = .next s) ∧
    (s.link = .up →
      (s.rs = .seekingMarker1 → b = 0xFA →
        exec (.rxb b) s = .next { s with rs := .seekingMarker2 }) ∧
      (s.rs = .seekingMarker1 → b ≠ 0xFA → exec (.rxb b) s = .next s) ∧
      (s.rs = .seekingMarker2 → b = 0xAF →
        exec (.rxb b) s = .next { s with rs := .accumulatingFrame, acc := [] }) ∧
      (s.rs = .seekingMarker2 → b = 0xFA → exec (.rxb b) s = .next s) ∧
      (s.rs = .seekingMarker2 → b ≠ 0xAF → b ≠ 0xFA →
        exec (.rxb b) s = .next { s with rs := .seekingMarker1 }) ∧
      (s.rs = .accumulatingFrame → s.cnt ≤ 11 →
        exec (.rxb b) s = .next { s with acc := s.acc ++ [b] }) ∧
      (s.rs = .accumulatingFrame → s.cnt = 12 → ∀ p : Payload, p.toList = s.acc ++ [b] →
        ∃ t, exec (.rxb b) s = .next t ∧ t.rs = .seekingMarker1 ∧ t.acc = [] ∧
          exec (.commit p) { s with rs := .seekingMarker1, acc := [] } = .next t))

/-- R88: RX is one RXB per byte in order, RXFRAME is RX of the marker and then RX of the 13 bytes of the
fixture. That exec of these rows answers where that run of steps leads is the model's choice (log entry
9); the steps themselves are in ChunkIsOneStepPerByte. -/
def Obligations.ChunksExpandToBytes : Prop :=
  (∀ (s : State) (bytes : List Byte), ∃ t,
    exec (.rx bytes) s = .next t ∧ execAll (bytes.map .rxb) s = .next t) ∧
  ∀ (s : State) (mode runMode stage fan lamp : Byte) (t1 t2 : U32), ∃ t,
    exec (.rxFrame mode runMode stage fan lamp t1 t2) s = .next t ∧
    execAll [.rx [0xFA, 0xAF], .rx (encodePayload mode runMode stage fan lamp t1 t2)] s = .next t

/-- Derived from R51, R88 and R125: a delivered chunk is one step for each of its bytes, each an RXB of its
own, in order; an empty chunk is nothing presented; and those steps lead where exec of RX says. -/
def Obligations.ChunkIsOneStepPerByte : Prop :=
  ∀ s : State, s.feed [] = s ∧ (s.slot = none → s.pending = [] → ∀ (b : Byte) (bytes : List Byte),
    step (s.feed (b :: bytes)) = exec (.rxb b) (s.feed bytes) ∧
    stepN bytes.length (s.feed bytes) = exec (.rx bytes) s)

/-- The row TELEMETRY, as the model reads it (log entry 10): its 15 wire bytes (R71) arrive as RXB in
order. -/
def Obligations.TelemetryFrameArrivesAsBytes : Prop :=
  ∀ (s : State) (mode runMode stage fan lamp : Byte) (t1 t2 : U32), ∃ t,
    exec (.telemetry mode runMode stage fan lamp t1 t2) s = .next t ∧
    execAll ([0xFA, 0xAF, mode, runMode, stage, fan, lamp,
      t1.extractLsb' 0 8, t1.extractLsb' 8 8, t1.extractLsb' 16 8, t1.extractLsb' 24 8,
      t2.extractLsb' 0 8, t2.extractLsb' 8 8, t2.extractLsb' 16 8, t2.extractLsb' 24 8].map .rxb) s
      = .next t

/-- Derived from R2, R130 and R165, for the row TELEMETRY as the model reads it (log entry 10): a whole
frame that arrives while a marker is sought is latched, appended and delivered. The reading of fan and
lamp bytes 2 to 255 is the spec's decision D6 (R103). -/
def Obligations.WholeFrameReachesSessionAndWindow : Prop :=
  ∀ (s : State) (mode runMode stage fan lamp : Byte) (t1 t2 : U32) (r : Record),
    s.link = .up → s.rs ≠ .accumulatingFrame → s.winCount ≤ s.params.capacity →
    r = ⟨mode, runMode, stage, fan != 0, lamp != 0, t1, t2, errFlags mode runMode stage⟩ →
    (r.err = 0 ∨ s.params.enumPolicy = .unknown →
      exec (.telemetry mode runMode stage fan lamp t1 t2) s = .next { s with
        rs := .seekingMarker1, acc := [],
        session := some ⟨mode, runMode, stage, fan != 0, lamp != 0⟩
        win := (if s.winCount < s.params.capacity then s.win else s.win.drop 1) ++ [sampleOf r]
        out := s.out ++ [.telem r] }) ∧
    (r.err ≠ 0 → s.params.enumPolicy = .reject →
      exec (.telemetry mode runMode stage fan lamp t1 t2) s = .next { s with
        rs := .seekingMarker1, acc := [],
        out := s.out ++ [.decodeError .invalidEnumValue r.err] })

/-- R131: any cutting of a byte sequence into chunks, empty ones included, gives the same frames in the
same order and the same final state. -/
def Obligations.ChunkingInvariance : Prop :=
  ∀ (s : State) (chunks : List (List Byte)),
    execAll (chunks.map .rx) s = exec (.rx chunks.flatten) s

/-- R132: from AccumulatingFrame back in SeekingMarker1 after 13 - CNT bytes, at most 13; and a marker
and 13 bytes seen from a seeking state are emitted as a frame. -/
def Obligations.BoundedLock : Prop :=
  (∀ (s : State) (bytes : List Byte), s.link = .up → s.rs = .accumulatingFrame → s.cnt ≤ 12 →
    bytes.length = 13 - s.cnt → bytes.length ≤ 13 ∧
    ∃ t, exec (.rx bytes) s = .next t ∧ t.rs = .seekingMarker1 ∧ t.cnt = 0) ∧
  ∀ (s : State) (p : Payload), s.link = .up → s.rs ≠ .accumulatingFrame →
    ∃ t, exec (.rx (0xFA :: 0xAF :: p.toList)) s = .next t ∧
      exec (.commit p) { s with rs := .seekingMarker1, acc := [] } = .next t

/-- R133: from a stream of frames and noise without a marker pair, exactly the intended frames are
committed, in order, and nothing else happens but that the search may end after an `FA`. -/
def Obligations.ExactlyTheIntendedFrames : Prop :=
  ∀ (s : State) (n0 : List Byte) (frames : List (Payload × List Byte)),
    s.link = .up → s.rs = .seekingMarker1 → s.acc = [] → NoMarker n0 →
    (∀ f ∈ frames, NoMarker f.2) →
    ∃ (t : State) (phase : ResyncPhase), phase ≠ .accumulatingFrame ∧
      execAll (frames.map fun f => .commit f.1) s = .next t ∧
      exec (.rx (frameStream n0 frames)) s = .next { t with rs := phase } ∧
      ((emitted s t).filter isFrameItem).length = frames.length

/-- Derived from R125: a chunk of k bytes completes at most (k + 14) / 15 frames, and at most k / 15 from
SeekingMarker1. One frame item per completed frame. -/
def Obligations.ChunkCompletesBoundedFrames : Prop :=
  ∀ (s t : State) (bytes : List Byte), s.Inv → exec (.rx bytes) s = .next t →
    ((emitted s t).filter isFrameItem).length ≤ (bytes.length + 14) / 15 ∧
    (s.rs = .seekingMarker1 →
      ((emitted s t).filter isFrameItem).length ≤ bytes.length / 15)

/-- Derived from R24, R128 and R135: where the next frames lie depends only on LINK, the position
register and the bytes: not on payload contents, the session, the window or the parameters. -/
def Obligations.FramingIgnoresContents : Prop :=
  ∀ (s s' t t' : State) (bytes : List Byte), s.link = s'.link → s.position = s'.position →
    exec (.rx bytes) s = .next t → exec (.rx bytes) s' = .next t' →
    t.position = t'.position ∧
      ((emitted s t).filter isFrameItem).length = ((emitted s' t').filter isFrameItem).length

/-! ## Whole machine -/

/-- The invariants of R34 hold at reset. -/
def Obligations.InvariantsHoldAtReset : Prop := State.reset.Inv

/-- R34: the six invariants hold after reset and are kept by every step. -/
def Obligations.StepKeepsInvariants : Prop :=
  State.reset.Inv ∧ ∀ s t : State, s.Inv → step s = .next t → t.Inv

/-- Derived from R31 and R205: no instruction writes the parameters; none touches the model's queue of
presented events or its test slot (log entries 3, 15). -/
def Obligations.ParametersAreReadOnly : Prop :=
  ∀ (i : Instr) (s t : State), exec i s = .next t →
    t.params = s.params ∧ t.pending = s.pending ∧ t.slot = s.slot

/-- Derived from R20, R36 (3) and R11, about what stands around the block in the model (log entries 1, 2,
3, 15): no instruction reads the trace, the codec value, the queue or the test slot, and the trace is
only appended to. -/
def Obligations.OutcomeIgnoresModelFields : Prop :=
  ∀ (i : Instr) (s : State) (o : List Output) (q : List Stimulus)
      (w : Option (List Byte)),
    exec i { s with out := o ++ s.out, pending := q, slot := w } =
      mapNext (fun t => { t with out := o ++ t.out, pending := q, slot := w }) (exec i s) ∧
    ∀ c : Option CodecResult,
      mapNext (fun t => { t with codec := none }) (exec i { s with codec := c }) =
        mapNext (fun t => { t with codec := none }) (exec i s)

/-- Derived from R32, its writes: which instructions change LINK, the resynchronizer and the window. (The
session is in SessionChangesOnlyByCommitOrLink, the parameters in ParametersAreReadOnly.) The last clause
is about the model's own field (log entry 2). -/
def Obligations.RegistersChangeOnlyByTheirWriters : Prop :=
  ∀ (i : Instr) (s t : State), exec i s = .next t →
    (t.link ≠ s.link → i = .connect ∨ i = .disconnect ∨ i = .reset) ∧
    (t.rs ≠ s.rs ∨ t.acc ≠ s.acc → (mayCommit i = true ∧ ∀ p, i ≠ .commit p) ∨
      i = .connect ∨ i = .disconnect ∨ i = .reset) ∧
    (t.win ≠ s.win → (∃ r, Output.telem r ∈ emitted s t) ∨ (∃ x, i = .wappend x) ∨ i = .wclear ∨
      i = .connect ∨ i = .disconnect ∨ i = .reset) ∧
    (t.codec ≠ s.codec → isEvent i = false ∧ mayCommit i = false)

/-- Derived from R8 and R175: a well-formed instruction completes in every state; what is refused is an
operand of SENDMODE or SETMODE outside its domain (log entry 13 for SETMODE). -/
def Obligations.WellFormedInstructionsComplete : Prop :=
  ∀ (i : Instr) (s : State), (i.wellFormed = true → ∃ t, exec i s = .next t) ∧
    ∀ r, exec i s = .refused r → r = .operandDomain ∧ i.wellFormed = false

/-- Derived from R8, R11 and R20: each of the nine events of R85, executed on the machine, is the block's
step function on the parameters and the block's state alone, with its items at the end of the trace. -/
def Obligations.EventsAreBlockSteps : Prop :=
  ∀ (e : Event) (s : State), isEvent e.instr = true ∧
    exec e.instr s = s.applyOutcome (blockStep s.params s.toBlock e)

/-- Derived from R8, R85 and R203: with the host's test slot empty (log entry 15) a step of the machine is
exactly one step of the block on exactly one presented event, or holds the state when nothing is
presented; the slot stays empty. -/
def Obligations.StepIsOneBlockStep : Prop :=
  ∀ s t : State, s.slot = none → step s = .next t → t.slot = none ∧
    ((s.pending = [] ∧ t = s) ∨
      ∃ (x : Stimulus) (rest : List Stimulus) (e : Event) (f : Effect), s.pending = x :: rest ∧
        decodePort x = .ok e ∧ blockStep s.params s.toBlock e = .next f ∧
        t = State.apply { s with pending := rest } f)

/-- Derived from R8 and R203, about the model's queue (log entry 3) and the host's test slot (log entry
15): a step decodes the first presented event and is exec of it with the event removed; with nothing
presented it holds its state; a wire frame in the slot is decoded and executed first. -/
def Obligations.StepRunsDecodedInstruction : Prop :=
  (∀ s : State, s.slot = none → s.pending = [] → step s = .next s) ∧
  (∀ (s : State) (x : Stimulus) (rest : List Stimulus) (e : Event), s.slot = none →
    s.pending = x :: rest → decodePort x = .ok e →
      step s = exec e.instr { s with pending := rest }) ∧
  (∀ (s : State) (x : Stimulus) (rest : List Stimulus) (why : DecodeRefusal), s.slot = none →
    s.pending = x :: rest → decodePort x = .error why → step s = .refused (.undecodable why)) ∧
  (∀ (s : State) (bytes : List Byte) (i : Instr), s.slot = some bytes → decodeFrame bytes = .ok i →
    step s = exec i { s with slot := none }) ∧
  ∀ (s : State) (bytes : List Byte) (why : DecodeRefusal), s.slot = some bytes →
    decodeFrame bytes = .error why → step s = .refused (.undecodable why)

/-- R86: the command port. -/
def Obligations.CommandPortCodes : Prop :=
  ∀ arg : BitVec 64,
    decodePort (.command 1 arg) =
      .ok (.sendMode (arg.extractLsb' 0 8) (arg.extractLsb' 8 8)) ∧
    decodePort (.command 2 arg) = .ok (.sendProf (arg.extractLsb' 0 16) (arg.extractLsb' 16 16)
      (arg.extractLsb' 32 16) (arg.extractLsb' 48 16)) ∧
    decodePort (.command 3 arg) = .ok .wclear ∧ decodePort (.command 4 arg) = .ok .wsnap ∧
    decodePort (.command 5 arg) = .ok .scur ∧ decodePort (.command 6 arg) = .ok .connect ∧
    decodePort (.command 7 arg) = .ok .disconnect ∧
    ∀ op : BitVec 4, op = 0 ∨ 8#4 ≤ op → decodePort (.command op arg) = .error (.reservedCommand op)

/-- Derived from R71, R72, R73, R86 and R89: decoding an encoded well-formed instruction gives it back,
with every operand at every value; the rows with an encoding are the nine events and the wire frames T,
M and P (R89). The model's choice in it: the two kinds of encoding, a port's bits and a wire frame's
bytes (log entry 15), and that the encoder writes ignored bits of cmd_arg as zero (log entry 19). -/
def Obligations.DecodeOfEncode : Prop :=
  ∀ i : Instr, ((encode i).isSome = i.encodable) ∧
    ∀ c, i.wellFormed = true → encode i = some c → decode c = .ok i

/-- Derived from R71, R72, R73, R84 and R86: a few words written out from the spec's encodings. -/
def Obligations.SpecWordsDecode : Prop :=
  decode (.wire [0xFA, 0xAF, 0x01, 0x01, 0x01]) = .ok (.setMode 1 1) ∧
  decode (.wire [0xFA, 0xAF, 0x02, 0x5A, 0x00, 0x96, 0x00, 0x1E, 0x00, 0xF5, 0x00]) =
    .ok (.setProfile 90 150 30 245) ∧
  decode (.wire [0xFA, 0xAF, 0x00, 0x01, 0x02, 0x01, 0x00, 0xE8, 0x03, 0x00, 0x00, 0xD0, 0x07,
    0x00, 0x00]) = .ok (.telemetry 0 1 2 1 0 1000 2000) ∧
  decode (.port (.rxByte 0xFA)) = .ok (.rxb 0xFA) ∧
  decode (.port (.command 6 0)) = .ok .connect ∧
  decode (.port (.command 0 0)) = .error (.reservedCommand 0)

/-- Derived from R37 and R201: a step of one instance leaves every other as it is, and is the step of
that instance alone. -/
def Obligations.InstancesShareNothing : Prop :=
  ∀ (k : Nat) (insts next : List State), stepInstance k insts = .next next →
    next.length = insts.length ∧ (∀ l, l ≠ k → next[l]? = insts[l]?) ∧
    ∀ s, insts[k]? = some s → ∃ t, step s = .next t ∧ next[k]? = some t
end

