-- ==== Sys2Proof/Laws/Bytes.lean ====
section
/-! SUPPORT. Little-endian packing: the arithmetic of R10, the inverses, and payloads as lists. -/

namespace Sys2Proof.Machine

/-- `u16le` is the sum of R10. -/
theorem u16le_toNat (b0 b1 : Byte) : (u16le b0 b1).toNat = b0.toNat + 256 * b1.toNat := by
  have h0 := b0.isLt
  simp only [u16le, BitVec.toNat_append, Nat.shiftLeft_eq]
  rw [Nat.mul_comm, ← Nat.two_pow_add_eq_or_of_lt h0]
  omega

/-- `u32le` is the sum of R10. -/
theorem u32le_toNat (b0 b1 b2 b3 : Byte) : (u32le b0 b1 b2 b3).toNat =
    b0.toNat + 256 * b1.toNat + 65536 * b2.toNat + 16777216 * b3.toNat := by
  have h0 := b0.isLt
  have h1 := b1.isLt
  have h2 := b2.isLt
  simp only [u32le, BitVec.toNat_append, Nat.shiftLeft_eq]
  rw [Nat.mul_comm, ← Nat.two_pow_add_eq_or_of_lt h0, Nat.mul_comm _ (2 ^ 8),
    ← Nat.two_pow_add_eq_or_of_lt h1, Nat.mul_comm _ (2 ^ 8), ← Nat.two_pow_add_eq_or_of_lt h2]
  omega

/-- Unpacking what `le16` packed. -/
@[simp] theorem u16le_extract (v : U16) :
    u16le (v.extractLsb' 0 8) (v.extractLsb' 8 8) = v := by
  apply BitVec.eq_of_toNat_eq
  rw [u16le_toNat]
  simp only [BitVec.extractLsb'_toNat, Nat.shiftRight_eq_div_pow]
  have := v.isLt
  omega

/-- Unpacking what `le32` packed. -/
@[simp] theorem u32le_extract (v : U32) :
    u32le (v.extractLsb' 0 8) (v.extractLsb' 8 8) (v.extractLsb' 16 8) (v.extractLsb' 24 8) = v := by
  apply BitVec.eq_of_toNat_eq
  rw [u32le_toNat]
  simp only [BitVec.extractLsb'_toNat, Nat.shiftRight_eq_div_pow]
  have := v.isLt
  omega

/-- Packing what `u32le` unpacked. -/
@[simp] theorem le32_u32le (b0 b1 b2 b3 : Byte) : le32 (u32le b0 b1 b2 b3) = [b0, b1, b2, b3] := by
  have h0 := b0.isLt
  have h1 := b1.isLt
  have h2 := b2.isLt
  have h3 := b3.isLt
  simp only [le32, List.cons.injEq, and_true]
  refine ⟨?_, ?_, ?_, ?_⟩ <;> apply BitVec.eq_of_toNat_eq <;>
    simp only [BitVec.extractLsb'_toNat, Nat.shiftRight_eq_div_pow, u32le_toNat] <;> omega

/-- The fields of SENDMODE's `cmd_arg` (R86), read back. -/
theorem sendMode_arg (m r : Byte) :
    (0#48 ++ r ++ m : BitVec 64).extractLsb' 0 8 = m ∧
    (0#48 ++ r ++ m : BitVec 64).extractLsb' 8 8 = r := by
  have h0 := m.isLt
  have h1 := r.isLt
  have e : (0#48 ++ r ++ m : BitVec 64).toNat = m.toNat + 256 * r.toNat := by
    simp only [BitVec.toNat_append, Nat.shiftLeft_eq, BitVec.toNat_ofNat]
    rw [Nat.mul_comm, ← Nat.two_pow_add_eq_or_of_lt h0]
    simp; omega
  refine ⟨?_, ?_⟩ <;> apply BitVec.eq_of_toNat_eq <;>
    simp only [BitVec.extractLsb'_toNat, Nat.shiftRight_eq_div_pow, e] <;> omega
/-- The fields of SENDPROF's `cmd_arg` (R86), read back. -/
theorem sendProf_arg (a b c d : U16) :
    (d ++ c ++ b ++ a : BitVec 64).extractLsb' 0 16 = a ∧
    (d ++ c ++ b ++ a : BitVec 64).extractLsb' 16 16 = b ∧
    (d ++ c ++ b ++ a : BitVec 64).extractLsb' 32 16 = c ∧
    (d ++ c ++ b ++ a : BitVec 64).extractLsb' 48 16 = d := by
  have h0 := a.isLt
  have h1 := b.isLt
  have h2 := c.isLt
  have h3 := d.isLt
  have e : (d ++ c ++ b ++ a : BitVec 64).toNat =
      a.toNat + 65536 * b.toNat + 4294967296 * c.toNat + 281474976710656 * d.toNat := by
    simp only [BitVec.toNat_append, Nat.shiftLeft_eq]
    rw [Nat.mul_comm, ← Nat.two_pow_add_eq_or_of_lt h0, Nat.mul_comm _ (2 ^ 16),
      ← Nat.two_pow_add_eq_or_of_lt h1, Nat.mul_comm _ (2 ^ 16), ← Nat.two_pow_add_eq_or_of_lt h2]
    omega
  refine ⟨?_, ?_, ?_, ?_⟩ <;> apply BitVec.eq_of_toNat_eq <;>
    simp only [BitVec.extractLsb'_toNat, Nat.shiftRight_eq_div_pow, e] <;> omega

/-- A payload is the list of its 13 bytes. -/
theorem payload_toList (p : Payload) : p.toList =
    [p[0], p[1], p[2], p[3], p[4], p[5], p[6], p[7], p[8], p[9], p[10], p[11], p[12]] := by
  apply List.ext_getElem
  · simp
  · intro i h1 h2
    simp only [List.length_cons, List.length_nil, Nat.zero_add, Nat.reduceAdd] at h2
    interval_cases i <;> simp

/-- Reading the payload off the list of its bytes gives it back. -/
@[simp] theorem payloadOf_toList (p : Payload) : payloadOf p.toList = p := by
  apply Vector.ext
  intro i h
  rw [payload_toList]
  interval_cases i <;> simp [payloadOf]

/-- Thirteen bytes are the list of the payload read off them. -/
theorem toList_payloadOf (bs : List Byte) (h : bs.length = 13) : (payloadOf bs).toList = bs := by
  obtain ⟨p, rfl⟩ : ∃ p : Payload, p.toList = bs := ⟨⟨bs.toArray, by simpa using h⟩, by simp⟩
  rw [payloadOf_toList]

end Sys2Proof.Machine
end

