-- ==== Sys2Proof/Laws/PerInstr.lean ====
section
/-! SUPPORT. The family Encodable: an instruction has an encoding exactly where R89 gives its row one. One lemma per constructor of Instr. -/

namespace Sys2Proof.Laws

/-- Of one instruction: it has an encoding exactly if it is encodable. -/
def Encodable.Statement (i : Instr) : Prop := (encode i).isSome = i.encodable

theorem Encodable.telemetry (mode runMode stage fan lamp : Byte) (t1 t2 : U32) :
    Encodable.Statement (.telemetry mode runMode stage fan lamp t1 t2) := rfl

theorem Encodable.setMode (mode runMode : Byte) : Encodable.Statement (.setMode mode runMode) := rfl

theorem Encodable.setProfile (a b c d : U16) : Encodable.Statement (.setProfile a b c d) := rfl

theorem Encodable.rxb (b : Byte) : Encodable.Statement (.rxb b) := rfl

theorem Encodable.reset : Encodable.Statement .reset := rfl

theorem Encodable.sendMode (mode runMode : Byte) : Encodable.Statement (.sendMode mode runMode) := rfl

theorem Encodable.sendProf (a b c d : U16) : Encodable.Statement (.sendProf a b c d) := rfl

theorem Encodable.wclear : Encodable.Statement .wclear := rfl

theorem Encodable.wsnap : Encodable.Statement .wsnap := rfl

theorem Encodable.scur : Encodable.Statement .scur := rfl

theorem Encodable.connect : Encodable.Statement .connect := rfl

theorem Encodable.disconnect : Encodable.Statement .disconnect := rfl

theorem Encodable.decodeTelemetry (p : Payload) : Encodable.Statement (.decodeTelemetry p) := rfl

theorem Encodable.commit (p : Payload) : Encodable.Statement (.commit p) := rfl

theorem Encodable.supdate (r : Record) : Encodable.Statement (.supdate r) := rfl

theorem Encodable.wappend (x : Sample) : Encodable.Statement (.wappend x) := rfl

theorem Encodable.encTelemetry (mode runMode stage fan lamp : Byte) (t1 t2 : U32) :
    Encodable.Statement (.encTelemetry mode runMode stage fan lamp t1 t2) := rfl

theorem Encodable.rx (bytes : List Byte) : Encodable.Statement (.rx bytes) := rfl

theorem Encodable.rxFrame (mode runMode stage fan lamp : Byte) (t1 t2 : U32) :
    Encodable.Statement (.rxFrame mode runMode stage fan lamp t1 t2) := rfl

end Sys2Proof.Laws
end

