-- ==== Sys2Proof/Laws/State.lean ====
section
/-! SUPPORT. One lemma per field per named update of the block, of an effect and of the machine, true by
rfl: no later proof unfolds a record update. -/

namespace Sys2Proof.Machine

/-! ### setPhase -/

@[simp] theorem Block.setPhase_link (x : Block) (v : ResyncPhase) : (x.setPhase v).link = x.link := rfl
@[simp] theorem Block.setPhase_rs (x : Block) (v : ResyncPhase) : (x.setPhase v).rs = v := rfl
@[simp] theorem Block.setPhase_acc (x : Block) (v : ResyncPhase) : (x.setPhase v).acc = x.acc := rfl
@[simp] theorem Block.setPhase_session (x : Block) (v : ResyncPhase) : (x.setPhase v).session = x.session := rfl
@[simp] theorem Block.setPhase_win (x : Block) (v : ResyncPhase) : (x.setPhase v).win = x.win := rfl

/-! ### accStore -/

@[simp] theorem Block.accStore_link (x : Block) (b : Byte) : (x.accStore b).link = x.link := rfl
@[simp] theorem Block.accStore_rs (x : Block) (b : Byte) : (x.accStore b).rs = x.rs := rfl
@[simp] theorem Block.accStore_acc (x : Block) (b : Byte) : (x.accStore b).acc = x.acc ++ [b] := rfl
@[simp] theorem Block.accStore_session (x : Block) (b : Byte) : (x.accStore b).session = x.session := rfl
@[simp] theorem Block.accStore_win (x : Block) (b : Byte) : (x.accStore b).win = x.win := rfl

/-! ### accClear -/

@[simp] theorem Block.accClear_link (x : Block) : (x.accClear).link = x.link := rfl
@[simp] theorem Block.accClear_rs (x : Block) : (x.accClear).rs = x.rs := rfl
@[simp] theorem Block.accClear_acc (x : Block) : (x.accClear).acc = [] := rfl
@[simp] theorem Block.accClear_session (x : Block) : (x.accClear).session = x.session := rfl
@[simp] theorem Block.accClear_win (x : Block) : (x.accClear).win = x.win := rfl

/-! ### latch -/

@[simp] theorem Block.latch_link (x : Block) (v : Session) : (x.latch v).link = x.link := rfl
@[simp] theorem Block.latch_rs (x : Block) (v : Session) : (x.latch v).rs = x.rs := rfl
@[simp] theorem Block.latch_acc (x : Block) (v : Session) : (x.latch v).acc = x.acc := rfl
@[simp] theorem Block.latch_session (x : Block) (v : Session) : (x.latch v).session = some v := rfl
@[simp] theorem Block.latch_win (x : Block) (v : Session) : (x.latch v).win = x.win := rfl

/-! ### setWindow -/

@[simp] theorem Block.setWindow_link (x : Block) (w : List Sample) : (x.setWindow w).link = x.link := rfl
@[simp] theorem Block.setWindow_rs (x : Block) (w : List Sample) : (x.setWindow w).rs = x.rs := rfl
@[simp] theorem Block.setWindow_acc (x : Block) (w : List Sample) : (x.setWindow w).acc = x.acc := rfl
@[simp] theorem Block.setWindow_session (x : Block) (w : List Sample) : (x.setWindow w).session = x.session := rfl
@[simp] theorem Block.setWindow_win (x : Block) (w : List Sample) : (x.setWindow w).win = w := rfl

/-! ### effects -/

@[simp] theorem Block.silent_block (x : Block) : (x.silent).block = x := rfl
@[simp] theorem Block.silent_outputs (x : Block) : (x.silent).outputs = [] := rfl
@[simp] theorem Block.emit_block (x : Block) (o : Output) : (x.emit o).block = x := rfl
@[simp] theorem Block.emit_outputs (x : Block) (o : Output) : (x.emit o).outputs = [o] := rfl
@[simp] theorem Block.respond_block (x : Block) (r : Response) : (x.respond r).block = x := rfl
@[simp] theorem Block.respond_outputs (x : Block) (r : Response) : (x.respond r).outputs = [.resp r] := rfl
@[simp] theorem Block.transmit_block (x : Block) (bs : List Byte) : (x.transmit bs).block = x := rfl
@[simp] theorem Block.transmit_outputs (x : Block) (bs : List Byte) : (x.transmit bs).outputs = bs.map .tx := rfl
@[simp] theorem Block.takeException_block (x : Block) (e : ExceptionCause) : (x.takeException e).block = x := rfl
@[simp] theorem Block.takeException_outputs (x : Block) (e : ExceptionCause) : (x.takeException e).outputs = [exceptionItem e] := rfl
@[simp] theorem Effect.andThen_block (e : Effect) (f : Block → Effect) :
    (e.andThen f).block = (f e.block).block := rfl
@[simp] theorem Effect.andThen_outputs (e : Effect) (f : Block → Effect) :
    (e.andThen f).outputs = e.outputs ++ (f e.block).outputs := rfl

/-! ### the machine -/

@[simp] theorem State.apply_toBlock (s : State) (e : Effect) : (s.apply e).toBlock = e.block := rfl
@[simp] theorem State.apply_link (s : State) (e : Effect) : (s.apply e).link = e.block.link := rfl
@[simp] theorem State.apply_rs (s : State) (e : Effect) : (s.apply e).rs = e.block.rs := rfl
@[simp] theorem State.apply_acc (s : State) (e : Effect) : (s.apply e).acc = e.block.acc := rfl
@[simp] theorem State.apply_session (s : State) (e : Effect) : (s.apply e).session = e.block.session := rfl
@[simp] theorem State.apply_win (s : State) (e : Effect) : (s.apply e).win = e.block.win := rfl
@[simp] theorem State.apply_out (s : State) (e : Effect) : (s.apply e).out = s.out ++ e.outputs := rfl
@[simp] theorem State.apply_codec (s : State) (e : Effect) : (s.apply e).codec = s.codec := rfl
@[simp] theorem State.apply_pending (s : State) (e : Effect) : (s.apply e).pending = s.pending := rfl
@[simp] theorem State.apply_slot (s : State) (e : Effect) : (s.apply e).slot = s.slot := rfl
@[simp] theorem State.apply_params (s : State) (e : Effect) : (s.apply e).params = s.params := rfl

@[simp] theorem State.setCodec_toBlock (s : State) (v : CodecResult) : (s.setCodec v).toBlock = s.toBlock := rfl
@[simp] theorem State.setCodec_link (s : State) (v : CodecResult) : (s.setCodec v).link = s.link := rfl
@[simp] theorem State.setCodec_rs (s : State) (v : CodecResult) : (s.setCodec v).rs = s.rs := rfl
@[simp] theorem State.setCodec_acc (s : State) (v : CodecResult) : (s.setCodec v).acc = s.acc := rfl
@[simp] theorem State.setCodec_session (s : State) (v : CodecResult) : (s.setCodec v).session = s.session := rfl
@[simp] theorem State.setCodec_win (s : State) (v : CodecResult) : (s.setCodec v).win = s.win := rfl
@[simp] theorem State.setCodec_out (s : State) (v : CodecResult) : (s.setCodec v).out = s.out := rfl
@[simp] theorem State.setCodec_codec (s : State) (v : CodecResult) : (s.setCodec v).codec = some v := rfl
@[simp] theorem State.setCodec_pending (s : State) (v : CodecResult) : (s.setCodec v).pending = s.pending := rfl
@[simp] theorem State.setCodec_slot (s : State) (v : CodecResult) : (s.setCodec v).slot = s.slot := rfl
@[simp] theorem State.setCodec_params (s : State) (v : CodecResult) : (s.setCodec v).params = s.params := rfl

@[simp] theorem State.feed_toBlock (s : State) (bytes : List Byte) : (s.feed bytes).toBlock = s.toBlock := rfl
@[simp] theorem State.feed_link (s : State) (bytes : List Byte) : (s.feed bytes).link = s.link := rfl
@[simp] theorem State.feed_rs (s : State) (bytes : List Byte) : (s.feed bytes).rs = s.rs := rfl
@[simp] theorem State.feed_acc (s : State) (bytes : List Byte) : (s.feed bytes).acc = s.acc := rfl
@[simp] theorem State.feed_session (s : State) (bytes : List Byte) : (s.feed bytes).session = s.session := rfl
@[simp] theorem State.feed_win (s : State) (bytes : List Byte) : (s.feed bytes).win = s.win := rfl
@[simp] theorem State.feed_out (s : State) (bytes : List Byte) : (s.feed bytes).out = s.out := rfl
@[simp] theorem State.feed_codec (s : State) (bytes : List Byte) : (s.feed bytes).codec = s.codec := rfl
@[simp] theorem State.feed_pending (s : State) (bytes : List Byte) : (s.feed bytes).pending = s.pending ++ bytes.map .rxByte := rfl
@[simp] theorem State.feed_slot (s : State) (bytes : List Byte) : (s.feed bytes).slot = s.slot := rfl
@[simp] theorem State.feed_params (s : State) (bytes : List Byte) : (s.feed bytes).params = s.params := rfl

/-- Two effects applied one after the other are the second after the first, applied once. -/
theorem State.apply_andThen (s : State) (e : Effect) (f : Block → Effect) :
    s.apply (e.andThen f) = (s.apply e).apply (f e.block) := by
  simp only [State.apply, Effect.andThen, List.append_assoc]

/-- Applying an effect that emits nothing writes the block alone. -/
theorem State.apply_silent (s : State) (x : Block) : s.apply x.silent = { s with toBlock := x } := by
  simp only [State.apply, Block.silent, List.append_nil]

/-- Applying an effect does not read the trace before it, the queue or the test slot. -/
theorem State.apply_of_trace (s : State) (e : Effect) (o : List Output) (q : List Stimulus)
    (w : Option (List Byte)) : State.apply { s with out := o ++ s.out, pending := q, slot := w } e =
      { s.apply e with out := o ++ (s.apply e).out, pending := q, slot := w } := by
  simp only [State.apply, List.append_assoc]

/-- Applying an effect does not read the caller's codec value. -/
theorem State.apply_of_codec (s : State) (e : Effect) (c : Option CodecResult) :
    State.apply { s with codec := c } e = { s.apply e with codec := c } := rfl

/-- The effect that changes nothing. -/
@[simp] theorem State.apply_silent_self (s : State) : s.apply s.toBlock.silent = s :=
  s.apply_silent s.toBlock

end Sys2Proof.Machine
end

