-- ==== Sys2Proof/Laws/Receive.lean ====
section
/-! SUPPORT. Once for each shared operation of the inbound path, everything it can do: the window
append, the commit, one received byte, a chunk of received bytes. -/

namespace Sys2Proof.Machine

/-! ### the window append (R141, R142) -/

theorem appended_of_room {c : Nat} {w : List Sample} (h : w.length < c) (x : Sample) :
    appended c w x = w ++ [x] := by
  simp only [appended, h, if_true]

theorem appended_of_full {c : Nat} {w : List Sample} (h : w.length = c) (x : Sample) :
    appended c w x = w.drop 1 ++ [x] := by
  subst h
  simp only [appended, Nat.lt_irrefl, if_false, List.take_length]

/-- On a window within its capacity: evict the oldest first if there is no room, then add. -/
theorem appended_of_le {c : Nat} {w : List Sample} (h : w.length ≤ c) (x : Sample) :
    appended c w x = (if w.length < c then w else w.drop 1) ++ [x] := by
  split
  · exact appended_of_room ‹_› x
  · exact appended_of_full (by omega) x

/-- An append never leaves more than C samples. -/
theorem appended_length_le {c : Nat} (hc : 0 < c) (w : List Sample) (x : Sample) :
    (appended c w x).length ≤ c := by
  unfold appended
  split
  · simp only [List.length_append, List.length_cons, List.length_nil]
    omega
  · simp only [List.length_append, List.length_drop, List.length_take, List.length_cons,
      List.length_nil]
    omega

/-- Every sample after an append was there before or is the new one. -/
theorem mem_appended {c : Nat} {w : List Sample} {x y : Sample} (h : y ∈ appended c w x) :
    y ∈ w ∨ y = x := by
  unfold appended at h
  split at h
  · simpa using h
  · rw [List.mem_append] at h
    rcases h with h | h
    · exact .inl (List.mem_of_mem_take (List.mem_of_mem_drop h))
    · exact .inr (by simpa using h)

/-! ### the decoded record (R100, R101) -/

/-- The flags of a decoded record are those of its bytes (R102). -/
theorem decodePayload_err (rule : BoolRule) (p : Payload) : (decodePayload rule p).err =
    errFlags (decodePayload rule p).mode (decodePayload rule p).runMode
      (decodePayload rule p).stage := rfl

/-- No flag is set exactly when all three enum bytes are defined (R102). -/
theorem errFlags_eq_zero (m r st : Byte) :
    errFlags m r st = 0 ↔ modeDefined m = true ∧ runModeDefined r = true ∧
      stageDefined st = true := by
  unfold errFlags
  cases modeDefined m <;> cases runModeDefined r <;> cases stageDefined st <;> decide

/-- The policy of R165: rejected means some flag is set and the policy is REJECT. -/
theorem rejects_iff (p : Params) (r : Record) :
    rejects p r = true ↔ r.err ≠ 0 ∧ p.enumPolicy = .reject := by
  simp only [rejects, hasUndefined, Bool.and_eq_true, bne_iff_ne, beq_iff_eq]

/-- The sample word of a record is at most 2^33 - 2 (R108, R34). -/
theorem sampleOf_le (r : Record) : (sampleOf r).toNat ≤ 2 ^ 33 - 2 := by
  have h1 := r.temp1.isLt
  have h2 := r.temp2.isLt
  simp only [sampleOf, BitVec.toNat_add, BitVec.toNat_setWidth]
  omega

/-! ### the commit (R165) -/

/-- All that a commit can do: reject with one item, or accept with the fan-out of R165. -/
theorem commitPayload_cases (prm : Params) (p : Payload) (x : Block) :
    ((decodePayload prm.boolRule p).err ≠ 0 ∧ prm.enumPolicy = .reject ∧
      commitPayload prm p x =
        ⟨x, [.decodeError .invalidEnumValue (decodePayload prm.boolRule p).err]⟩) ∨
    (((decodePayload prm.boolRule p).err = 0 ∨ prm.enumPolicy = .unknown) ∧
      commitPayload prm p x = ⟨{ x with
        session := some (sessionOf (decodePayload prm.boolRule p))
        win := appended prm.capacity x.win (sampleOf (decodePayload prm.boolRule p)) },
        [.telem (decodePayload prm.boolRule p)]⟩) := by
  by_cases h : rejects prm (decodePayload prm.boolRule p) = true
  · left
    obtain ⟨h1, h2⟩ := (rejects_iff _ _).1 h
    exact ⟨h1, h2, by simp only [commitPayload, h, if_true]; rfl⟩
  · right
    refine ⟨?_, by simp only [commitPayload, h]; rfl⟩
    rw [rejects_iff, not_and] at h
    by_cases he : (decodePayload prm.boolRule p).err = 0
    · exact .inl he
    · right
      have := h he
      cases hp : prm.enumPolicy
      · rfl
      · exact absurd hp this

/-- A commit writes neither the resynchronizer nor LINK. -/
theorem commitPayload_frame (prm : Params) (p : Payload) (x : Block) :
    (commitPayload prm p x).block.link = x.link ∧ (commitPayload prm p x).block.rs = x.rs ∧
    (commitPayload prm p x).block.acc = x.acc := by
  rcases commitPayload_cases prm p x with ⟨-, -, h⟩ | ⟨-, h⟩ <;> rw [h] <;> exact ⟨rfl, rfl, rfl⟩

/-- A commit emits exactly one item, and it is a frame item. -/
theorem commitPayload_out (prm : Params) (p : Payload) (x : Block) :
    ∃ o, isFrameItem o = true ∧ (commitPayload prm p x).outputs = [o] := by
  rcases commitPayload_cases prm p x with ⟨-, -, h⟩ | ⟨-, h⟩ <;> rw [h] <;> exact ⟨_, rfl, rfl⟩

/-! ### the values of LINK and RS -/

theorem Link.down_or_up (l : Link) : l = .down ∨ l = .up := by
  cases l
  · exact .inl rfl
  · exact .inr rfl

theorem ResyncPhase.cases_three (r : ResyncPhase) :
    r = .seekingMarker1 ∨ r = .seekingMarker2 ∨ r = .accumulatingFrame := by
  cases r
  · exact .inl rfl
  · exact .inr (.inl rfl)
  · exact .inr (.inr rfl)

/-! ### one received byte (R120 to R124) -/

variable {prm : Params} {x : Block}

theorem receiveByte_down (h : x.link = .down) (b : Byte) : receiveByte prm b x = x.silent := by
  simp only [receiveByte, h]

theorem receiveByte_seek1 (hl : x.link = .up) (hr : x.rs = .seekingMarker1) (b : Byte) :
    receiveByte prm b x = ⟨if b = marker1 then { x with rs := .seekingMarker2 } else x, []⟩ := by
  simp only [receiveByte, hl, hr, seekMarker1, Block.setPhase, Block.silent]

theorem receiveByte_seek2 (hl : x.link = .up) (hr : x.rs = .seekingMarker2) (b : Byte) :
    receiveByte prm b x = ⟨if b = marker2 then { x with rs := .accumulatingFrame, acc := [] }
      else if b = marker1 then x else { x with rs := .seekingMarker1 }, []⟩ := by
  simp only [receiveByte, hl, hr, seekMarker2, Block.setPhase, Block.accClear, Block.silent]

theorem receiveByte_store (hl : x.link = .up) (hr : x.rs = .accumulatingFrame)
    (hc : x.acc.length ≤ 11) (b : Byte) :
    receiveByte prm b x = ⟨{ x with acc := x.acc ++ [b] }, []⟩ := by
  simp only [receiveByte, hl, hr, accumulate, Block.cnt, hc, if_true, Block.accStore, Block.silent]

theorem receiveByte_complete (hl : x.link = .up) (hr : x.rs = .accumulatingFrame)
    (hc : 11 < x.acc.length) (b : Byte) : receiveByte prm b x =
      commitPayload prm (payloadOf (x.acc ++ [b])) { x with rs := .seekingMarker1, acc := [] } := by
  simp only [receiveByte, hl, hr, accumulate, Block.cnt, Nat.not_le.2 hc, if_false, completeFrame,
    Block.accStore, Block.accClear, Block.setPhase]

/-- All that a received byte can do: nothing (noise, or LINK is Down), a move of the automaton, the
store of a payload byte, or the commit of a frame. -/
theorem receiveByte_cases (prm : Params) (b : Byte) (x : Block) :
    receiveByte prm b x = ⟨x, []⟩ ∨
    (x.link = .up ∧ x.rs = .seekingMarker1 ∧ b = marker1 ∧
      receiveByte prm b x = ⟨{ x with rs := .seekingMarker2 }, []⟩) ∨
    (x.link = .up ∧ x.rs = .seekingMarker2 ∧ b = marker2 ∧
      receiveByte prm b x = ⟨{ x with rs := .accumulatingFrame, acc := [] }, []⟩) ∨
    (x.link = .up ∧ x.rs = .seekingMarker2 ∧
      receiveByte prm b x = ⟨{ x with rs := .seekingMarker1 }, []⟩) ∨
    (x.link = .up ∧ x.rs = .accumulatingFrame ∧ x.acc.length ≤ 11 ∧
      receiveByte prm b x = ⟨{ x with acc := x.acc ++ [b] }, []⟩) ∨
    (x.link = .up ∧ x.rs = .accumulatingFrame ∧ 11 < x.acc.length ∧ receiveByte prm b x =
      commitPayload prm (payloadOf (x.acc ++ [b])) { x with rs := .seekingMarker1, acc := [] }) := by
  rcases Link.down_or_up x.link with hl | hl
  · exact .inl (receiveByte_down hl b)
  rcases ResyncPhase.cases_three x.rs with hr | hr | hr
  · have h := receiveByte_seek1 (prm := prm) hl hr b
    by_cases hb : b = marker1
    · rw [if_pos hb] at h
      exact .inr (.inl ⟨hl, hr, hb, h⟩)
    · rw [if_neg hb] at h
      exact .inl h
  · have h := receiveByte_seek2 (prm := prm) hl hr b
    by_cases h2 : b = marker2
    · rw [if_pos h2] at h
      exact .inr (.inr (.inl ⟨hl, hr, h2, h⟩))
    · rw [if_neg h2] at h
      by_cases h1 : b = marker1
      · rw [if_pos h1] at h
        exact .inl h
      · rw [if_neg h1] at h
        exact .inr (.inr (.inr (.inl ⟨hl, hr, h⟩)))
  · by_cases hc : x.acc.length ≤ 11
    · exact .inr (.inr (.inr (.inr (.inl ⟨hl, hr, hc, receiveByte_store hl hr hc b⟩))))
    · have hc := Nat.not_le.1 hc
      exact .inr (.inr (.inr (.inr (.inr ⟨hl, hr, hc, receiveByte_complete hl hr hc b⟩))))

/-- A received byte does not write LINK. -/
theorem receiveByte_link (prm : Params) (b : Byte) (x : Block) :
    (receiveByte prm b x).block.link = x.link := by
  rcases receiveByte_cases prm b x with h | ⟨-, -, -, h⟩ | ⟨-, -, -, h⟩ | ⟨-, -, h⟩ | ⟨-, -, -, h⟩ |
    ⟨-, -, -, h⟩ <;> rw [h]
  exact (commitPayload_frame _ _ _).1

/-- A received byte emits nothing or one frame item. -/
theorem receiveByte_out (prm : Params) (b : Byte) (x : Block) :
    (receiveByte prm b x).outputs = [] ∨
    ∃ o, isFrameItem o = true ∧ (receiveByte prm b x).outputs = [o] := by
  rcases receiveByte_cases prm b x with h | ⟨-, -, -, h⟩ | ⟨-, -, -, h⟩ | ⟨-, -, h⟩ | ⟨-, -, -, h⟩ |
    ⟨-, -, -, h⟩ <;> rw [h]
  all_goals first
    | exact .inl rfl
    | exact .inr (commitPayload_out _ _ _)

/-! ### a run of received bytes (R125) -/

/-- Two runs of bytes one after the other are one run (R126). -/
theorem receiveBytes_append (prm : Params) (xs ys : List Byte) (x : Block) :
    receiveBytes prm (xs ++ ys) x = (receiveBytes prm xs x).andThen (receiveBytes prm ys) := by
  induction xs generalizing x with
  | nil => rfl
  | cons b bs ih =>
    simp only [List.cons_append, receiveBytes, ih, Effect.andThen, List.append_assoc]

/-- The induction over a run of bytes, packaged: what holds of no byte, of one byte, and of one run after
another, holds of every run. -/
theorem receiveBytes_rel {R : Block → Effect → Prop} (hnil : ∀ x, R x ⟨x, []⟩)
    (hthen : ∀ {x e f}, R x e → R e.block f → R x ⟨f.block, e.outputs ++ f.outputs⟩)
    (hbyte : ∀ b x, R x (receiveByte prm b x)) (bytes : List Byte) (x : Block) :
    R x (receiveBytes prm bytes x) := by
  induction bytes generalizing x with
  | nil => exact hnil x
  | cons b bs ih => exact hthen (hbyte b x) (ih _)

/-- A run of bytes does not write LINK. -/
theorem receiveBytes_link (bytes : List Byte) (x : Block) :
    (receiveBytes prm bytes x).block.link = x.link :=
  receiveBytes_rel (R := fun x e => e.block.link = x.link) (fun _ => rfl) (fun h g => g.trans h)
    (fun b x => receiveByte_link prm b x) bytes x

/-- While Down a run of bytes is dropped whole (R120). -/
theorem receiveBytes_down (h : x.link = .down) (bytes : List Byte) :
    receiveBytes prm bytes x = x.silent := by
  induction bytes with
  | nil => rfl
  | cons b bs ih => simp only [receiveBytes, receiveByte_down h, Effect.andThen, Block.silent_block, ih,
      Block.silent_outputs, List.append_nil]; rfl

/-- A run of bytes emits frame items only. -/
theorem receiveBytes_out (bytes : List Byte) (x : Block) :
    ∀ o ∈ (receiveBytes prm bytes x).outputs, isFrameItem o = true :=
  receiveBytes_rel (R := fun _ e => ∀ o ∈ e.outputs, isFrameItem o = true) (fun _ => by simp)
    (fun h g o ho => (List.mem_append.1 ho).elim (h o) (g o))
    (fun b x => by
      rcases receiveByte_out prm b x with h | ⟨o, ho, h⟩
      · simp [h]
      · simpa [h] using ho)
    bytes x

/-! ### sends (R170, R171) -/

/-- All that a send can do. -/
theorem sendFrame_cases (bytes : List Byte) (x : Block) :
    (x.link = .down ∧ sendFrame bytes x = ⟨x, [.resp .sendErrorNotConnected]⟩) ∨
    (x.link = .up ∧ sendFrame bytes x = ⟨x, bytes.map .tx ++ [.resp .ok]⟩) := by
  rcases Link.down_or_up x.link with h | h
  · exact .inl ⟨h, by simp only [sendFrame, h]; rfl⟩
  · exact .inr ⟨h, by simp only [sendFrame, h]; rfl⟩

/-! ### the items a step emitted (R11) -/

/-- What was emitted, where the trace grew by `o`. -/
theorem emitted_of_out {s t : State} {o : List Output} (h : t.out = s.out ++ o) :
    emitted s t = o := by
  simp only [emitted, h, List.drop_left]

/-- Applying an effect emits its items. -/
@[simp] theorem emitted_apply (s : State) (e : Effect) : emitted s (s.apply e) = e.outputs :=
  emitted_of_out rfl

end Sys2Proof.Machine
end

