-- ==== Sys2Proof/Tests/Slice0.lean ====
section
/-! SUPPORT. Tests on single steps, decoding of words written out from the spec's encodings, ill-formed
terms that WellFormed refuses, and a witness for the hypotheses of every statement that has some.
Expected values are those of spec/95_test_vectors.md and the examples of the rules. -/

namespace Sys2Proof.Tests

open Sys2Proof.Machine

/-- Parameters with capacity `c + 1` (R7). -/
def prm (c : Nat) (pol : EnumPolicy) : Params := ⟨c + 1, Nat.succ_pos c, pol, .nonzeroTrue⟩

/-- A state with LINK Up and C = 3 in a position, with a session and a window. -/
def upAt (pol : EnumPolicy) (rs : ResyncPhase) (acc : List Byte) (se : Option Session)
    (win : List Sample) : State := ⟨⟨.up, rs, acc, se, win⟩, ⟨[], none, [], none⟩, prm 2 pol⟩

/-- LINK Up, nothing received (R168). -/
def up0 : State := upAt .unknown .seekingMarker1 [] none []

/-- As after reset, with C = 3. -/
def down0 : State := { up0 with link := .down }

/-- The outcome is a next state of which `p` holds. -/
def nextIs (o : Host.Outcome State Fault Refusal) (p : State → Bool) : Bool :=
  match o with
  | .next t => p t
  | .fault _ => false
  | .refused _ => false

/-- The outcome is this refusal. -/
def refusedBy (o : Host.Outcome State Fault Refusal) (r : Refusal) : Bool :=
  match o with
  | .next _ => false
  | .fault _ => false
  | .refused q => q == r

/-- The payload of the source's example (spec/95, 2.1). -/
def pExample : Payload := #v[0x00, 0x01, 0x02, 0x01, 0x00, 0xE8, 0x03, 0x00, 0x00, 0xD0, 0x07, 0x00, 0x00]

/-- V3 (spec/95, 3.1): the smallest undefined mode. -/
def pV3 : Payload := #v[4, 0, 0, 0, 0, 1, 0, 0, 0, 0, 0, 0, 0]

/-- V6 (spec/95, 3.1): everything undefined, marker bytes inside temp1. -/
def pV6 : Payload := #v[0xFF, 0xFF, 0xFF, 2, 0xFF, 0xFA, 0xAF, 0, 0, 0x78, 0x56, 0x34, 0x12]

/-- The record of the source's example. -/
def rExample : Record := ⟨0, 1, 2, true, false, 1000, 2000, 0⟩

/-! ## WellFormed refuses an ill-formed term for each check -/

theorem test_wf_sendMode_mode : (Instr.sendMode 4 0).wellFormed = false := by decide
theorem test_wf_sendMode_runMode : (Instr.sendMode 0 3).wellFormed = false := by decide
theorem test_wf_sendMode_inside : (Instr.sendMode 3 2).wellFormed = true := by decide
theorem test_wf_setMode_mode : (Instr.setMode 4 0).wellFormed = false := by decide
theorem test_wf_setMode_runMode : (Instr.setMode 0 3).wellFormed = false := by decide
theorem test_wf_supdate_flags :
    (Instr.supdate { rExample with err := 1 }).wellFormed = false := by decide

/-! ## Decoding: words written out from R71, R72, R73 and R86 -/

/-- R71 with the payload of spec/95, 2.1. -/
theorem test_decode_telemetry : decode (.wire [0b11111010, 0b10101111, 0x00, 0x01, 0x02, 0x01, 0x00,
    0xE8, 0x03, 0x00, 0x00, 0xD0, 0x07, 0x00, 0x00]) = .ok (.telemetry 0 1 2 1 0 1000 2000) := by
  decide

/-- R72, spec/95, E2. -/
theorem test_decode_setMode :
    decode (.wire [0b11111010, 0b10101111, 0b00000001, 1, 1]) = .ok (.setMode 1 1) := by decide

/-- R73, spec/95, E6: `FA AF` inside the payload. -/
theorem test_decode_setProfile : decode (.wire [0b11111010, 0b10101111, 0b00000010, 0x2C, 0x01, 0xB7,
    0x00, 0x2D, 0x00, 0xFA, 0xAF]) = .ok (.setProfile 300 183 45 45050) := by decide

theorem test_decode_rxb : decode (.port (.rxByte 0b10101111)) = .ok (.rxb 0xAF) := by decide
theorem test_decode_reset : decode (.port .resetPin) = .ok .reset := by decide

/-- R86: mode = [7:0], runMode = [15:8], the rest ignored. -/
theorem test_decode_sendMode :
    decode (.port (.command 0b0001 0xFFFFFFFFFFFF0203)) = .ok (.sendMode 3 2) := by decide

/-- R86: soakTime = [15:0], soakTemp = [31:16], peakTime = [47:32], peakTemp = [63:48]. -/
theorem test_decode_sendProf :
    decode (.port (.command 0b0010 0x00F5001E0096005A)) = .ok (.sendProf 90 150 30 245) := by decide

theorem test_decode_wclear : decode (.port (.command 0b0011 0)) = .ok .wclear := by decide
theorem test_decode_wsnap : decode (.port (.command 0b0100 0)) = .ok .wsnap := by decide
theorem test_decode_scur : decode (.port (.command 0b0101 0)) = .ok .scur := by decide
theorem test_decode_connect : decode (.port (.command 0b0110 0)) = .ok .connect := by decide
theorem test_decode_disconnect : decode (.port (.command 0b0111 0)) = .ok .disconnect := by decide

/-- R84: reserved codes; R75: other outbound type bytes; a broken marker. -/
theorem test_decode_reserved_0 : decode (.port (.command 0 0)) = .error (.reservedCommand 0) := by decide
theorem test_decode_reserved_8 : decode (.port (.command 8 0)) = .error (.reservedCommand 8) := by decide
theorem test_decode_bad_type :
    decode (.wire [0xFA, 0xAF, 0x03, 0x00, 0x00]) = .error .noSuchFrame := by decide
theorem test_decode_bad_marker :
    decode (.wire [0xFA, 0xFA, 0x01, 0x00, 0x00]) = .error .noSuchFrame := by decide

/-- The rows without an encoding are never presented (R85, R89). -/
theorem test_no_encoding_commit : encode (.commit pExample) = none := by decide
theorem test_no_encoding_decodeTelemetry : encode (.decodeTelemetry pExample) = none := by decide
theorem test_no_encoding_supdate : encode (.supdate rExample) = none := by decide
theorem test_no_encoding_wappend : encode (.wappend 9) = none := by decide
theorem test_no_encoding_encTelemetry : encode (.encTelemetry 0 1 2 1 0 1000 2000) = none := by decide
theorem test_no_encoding_rx : encode (.rx [0xFA, 0xAF]) = none := by decide
theorem test_no_encoding_rxFrame : encode (.rxFrame 0 1 2 1 0 1000 2000) = none := by decide

/-- Table words: a command code, a received byte, a frame in either numbering (log entries 7, 8). -/
theorem test_table_word_connect : decodeTableWord 8 6 = some .connect := by decide
theorem test_table_word_rxb : decodeTableWord 8 0xFA = some (.rxb 0xFA) := by decide
theorem test_table_word_frame : decodeTableWord 40 0x010101AFFA = some (.setMode 1 1) := by decide
theorem test_table_word_frame_msb : decodeTableWord 40 0xFAAF010100 = some (.setMode 1 0) := by decide

/-! ## One step of each instruction -/

/-- spec/95, S11 and S3, S5, S6, S2. -/
theorem test_rxb_down : nextIs (exec (.rxb 0xFA) down0) (· == down0) = true := by decide
theorem test_rxb_fa_fa : nextIs (exec (.rxb 0xFA) { up0 with rs := .seekingMarker2 })
    (fun t => t.rs == .seekingMarker2) = true := by decide

/-- spec/95, S10: the 13th byte commits. -/
theorem test_rxb_complete : nextIs (exec (.rxb 0x00) (upAt .unknown .accumulatingFrame
    [0x00, 0x01, 0x02, 0x01, 0x00, 0xE8, 0x03, 0x00, 0x00, 0xD0, 0x07, 0x00] none []))
    (fun t => t == { upAt .unknown .seekingMarker1 [] (some ⟨0, 1, 2, true, false⟩) [3000] with
      out := [.telem rExample] }) = true := by decide

/-- spec/95, P1: exactly one frame inside noise. -/
theorem test_rx_one_frame_in_noise : nextIs (exec (.rx [0x11, 0xFA, 0x22, 0xFA, 0xAF, 0x00, 0x01, 0x02,
    0x01, 0x00, 0xE8, 0x03, 0x00, 0x00, 0xD0, 0x07, 0x00, 0x00, 0x33]) up0)
    (fun t => t.out == [.telem rExample] && t.win == [3000] && t.rs == .seekingMarker1) = true := by
  decide

/-- spec/95, P3, third chunk, its first 17 bytes (R213): a stray marker pair makes a bogus frame. -/
theorem test_rx_false_lock : nextIs (exec (.rx [0xFA, 0xAF, 0xFA, 0xAF, 0x01, 0x00, 0x00, 0x00, 0x00,
    0xF4, 0x01, 0x00, 0x00, 0xBC, 0x02, 0x00, 0x00]) up0)
    (fun t => t.out == [.telem ⟨250, 175, 1, false, false, 32768000, 45875200, 0b011⟩] &&
      t.win == [78643200]) = true := by decide

/-- spec/95, P2, frame F4. -/
theorem test_rxFrame : nextIs (exec (.rxFrame 3 1 5 1 0 4001 3999) { up0 with win := [2000, 4000, 6000] })
    (fun t => t.win == [4000, 6000, 8000] && t.session == some ⟨3, 1, 5, true, false⟩) = true := by
  decide

/-- The frame F4 of spec/95, P2, as a whole wire frame; dropped while Down (R120). -/
theorem test_telemetry : nextIs (exec (.telemetry 3 1 5 1 0 4001 3999) up0)
    (fun t => t.win == [8000] && t.position == (.seekingMarker1, 0)) = true := by decide
theorem test_telemetry_down : nextIs (exec (.telemetry 3 1 5 1 0 4001 3999) down0)
    (· == down0) = true := by decide

/-- spec/95, E4 and K10. -/
theorem test_setMode : nextIs (exec (.setMode 3 0) down0)
    (fun t => t.codec == some (.bytes [0xFA, 0xAF, 0x01, 0x03, 0x00]) && t.out == []) = true := by decide
theorem test_setMode_refused : refusedBy (exec (.setMode 4 0) up0) .operandDomain = true := by decide

/-- spec/95, E5. -/
theorem test_setProfile : nextIs (exec (.setProfile 90 150 30 245) down0) (fun t => t.codec ==
    some (.bytes [0xFA, 0xAF, 0x02, 0x5A, 0x00, 0x96, 0x00, 0x1E, 0x00, 0xF5, 0x00])) = true := by decide

/-- R205: a reset in mid-frame loses the partial frame silently. -/
theorem test_reset : nextIs (exec .reset (upAt .unknown .accumulatingFrame [1, 2]
    (some ⟨0, 0, 0, false, false⟩) [5])) (· == down0) = true := by decide

/-- spec/95, K4, K1, K10. -/
theorem test_sendMode_up : nextIs (exec (.sendMode 1 1) up0) (fun t => t == { up0 with
    out := [.tx 0xFA, .tx 0xAF, .tx 0x01, .tx 0x01, .tx 0x01, .resp .ok] }) = true := by decide
theorem test_sendMode_refused : refusedBy (exec (.sendMode 0 3) up0) .operandDomain = true := by decide

/-- spec/95, K5, K2. -/
theorem test_sendProf_up : nextIs (exec (.sendProf 90 150 30 245) up0) (fun t => txStream t.out ==
    [0xFA, 0xAF, 0x02, 0x5A, 0x00, 0x96, 0x00, 0x1E, 0x00, 0xF5, 0x00]) = true := by decide
theorem test_sendProf_down : nextIs (exec (.sendProf 90 150 30 245) down0) (fun t => t ==
    { down0 with out := [.resp .sendErrorNotConnected] }) = true := by decide

/-- spec/95, W5, W4. -/
theorem test_wclear : nextIs (exec .wclear { up0 with win := [4000, 6000, 8000] })
    (fun t => t.win == [] && t.out == [.resp .ok]) = true := by decide
theorem test_wsnap : nextIs (exec .wsnap { up0 with win := [4000, 6000, 8000] }) (fun t => t.out ==
    [.resp (.snapshot [(0, 4000), (1, 6000), (2, 8000)])]) = true := by decide

/-- spec/95, U1 and the answer of U5. -/
theorem test_scur_none : nextIs (exec .scur up0) (fun t => t.out == [.resp .notConnected]) = true := by
  decide
theorem test_scur_unknown : nextIs (exec .scur { up0 with session := some ⟨4, 0, 0, false, false⟩ })
    (fun t => t.out == [.resp (.session ⟨.unknown 4, .off, .standby, false, false⟩)]) = true := by decide

/-- spec/95, K6, K7. -/
theorem test_connect : nextIs (exec .connect (upAt .unknown .accumulatingFrame [1, 2, 3, 4, 5, 6, 7] none
    [1, 2])) (fun t => t == { up0 with out := [.resp .ok] }) = true := by decide
theorem test_disconnect : nextIs (exec .disconnect (upAt .unknown .accumulatingFrame [1, 2, 3, 4, 5, 6, 7]
    none [1, 2])) (fun t => t == { down0 with out := [.resp .ok] }) = true := by decide

/-- spec/95, 2.1 and V6. -/
theorem test_decodeTelemetry : nextIs (exec (.decodeTelemetry pExample) down0)
    (fun t => t.codec == some (.record rExample)) = true := by decide
theorem test_decodeTelemetry_v6 : nextIs (exec (.decodeTelemetry pV6) down0) (fun t => t.codec ==
    some (.record ⟨255, 255, 255, true, true, 45050, 305419896, 0b111⟩)) = true := by decide

/-- spec/95, U6 (REJECT) and U5 (UNKNOWN). -/
theorem test_commit_reject : nextIs (exec (.commit pV3) { up0 with params := prm 2 .reject })
    (fun t => t == { up0 with params := prm 2 .reject, out := [.decodeError .invalidEnumValue 0b001] })
    = true := by decide
theorem test_commit_unknown : nextIs (exec (.commit pV3) up0)
    (fun t => t.session == some ⟨4, 0, 0, false, false⟩ && t.win == [1]) = true := by decide

/-- The example of R155. -/
theorem test_supdate : nextIs (exec (.supdate rExample) up0)
    (fun t => t.sValid && t.sStage == some 2 && t.sFan == some true && t.out == []) = true := by decide

/-- spec/95, W3 and W7 (C = 1). -/
theorem test_wappend_full : nextIs (exec (.wappend 8000) { up0 with win := [2000, 4000, 6000] })
    (fun t => t.win == [4000, 6000, 8000]) = true := by decide
theorem test_wappend_one : nextIs (exec (.wappend 7) { up0 with params := prm 0 .unknown, win := [5] })
    (fun t => t.win == [7]) = true := by decide

/-- spec/95, E9. -/
theorem test_encTelemetry : nextIs (exec (.encTelemetry 1 1 3 1 0 24740 24332) down0) (fun t => t.codec ==
    some (.bytes [0x01, 0x01, 0x03, 0x01, 0x00, 0xA4, 0x60, 0x00, 0x00, 0x0C, 0x5F, 0x00, 0x00]))
    = true := by decide

/-- R51: an empty chunk is no event; a byte of a chunk is one step. -/
theorem test_feed_empty : up0.feed [] = up0 := by decide
theorem test_feed_one_step : nextIs (step (up0.feed [0xFA, 0xAF]))
    (fun t => t.rs == .seekingMarker2 && t.pending == [.rxByte 0xAF]) = true := by decide

/-- A frame in the host's test slot runs in the next step and leaves the slot empty (log entry 15). -/
theorem test_step_slot : nextIs (step (up0.withFetchWord 40 0x010101AFFA)) (fun t => t.slot.isNone &&
    t.codec == some (.bytes [0xFA, 0xAF, 0x01, 0x01, 0x01])) = true := by decide

/-- step takes the first presented event; with none it holds the state (R203); it refuses a reserved
command code (R84). -/
theorem test_step_word : nextIs (step (down0.withFetchWord 8 6))
    (fun t => t.link == .up && t.pending.isEmpty) = true := by decide
theorem test_step_idle : nextIs (step up0) (· == up0) = true := by decide
theorem test_step_reserved : refusedBy (step { up0 with pending := [.command 15 0] })
    (.undecodable (.reservedCommand 15)) = true := by decide

/-! ## Witnesses: concrete states and operands that meet the hypotheses of the statements -/

theorem witness_disconnectDiscards : down0.Inv ∧ down0.link = .down ∧ 3#8 ≤ 3#8 ∧ 2#8 ≤ 2#8 := by decide

theorem witness_sendMode : (3#8 ≤ 3#8 ∧ 2#8 ≤ 2#8 ∧ up0.link = .up) ∧
    ((0#8 ≤ 3#8 ∧ 0#8 ≤ 2#8) ∧ down0.link = .down) := by decide

theorem witness_sendProf : up0.link = .up ∧ down0.link = .down := by decide

theorem witness_sendModeRefused : (3#8 < 4#8 ∨ 2#8 < 0#8) ∧ (3#8 < 0#8 ∨ 2#8 < 3#8) ∧
    ¬(3#8 < 3#8 ∨ 2#8 < 2#8) := by decide

theorem witness_rejectedSend : (isSend (.sendMode 3 2) = true ∧ (Instr.sendMode 3 2).wellFormed = true) ∧
    (isSend (.sendProf 1 2 3 4) = true ∧ (Instr.sendProf 1 2 3 4).wellFormed = true) ∧
    down0.link = .down := by decide

theorem witness_sendError : ∃ t, exec (.sendProf 1 2 3 4) down0 = .next t ∧
    Output.resp .sendErrorNotConnected ∈ emitted down0 t := ⟨_, rfl, by decide⟩

theorem witness_transmits : ∃ t, exec (.sendMode 3 2) up0 = .next t ∧
    Output.tx 0xFA ∈ emitted up0 t := ⟨_, rfl, by decide⟩

theorem witness_sendsCommute : isSend (.sendMode 3 2) = true ∧
    (∃ t, execAll [.sendMode 3 2, .rxb 0xFA] up0 = .next t) ∧
    ∃ u, execAll [.rxb 0xFA, .sendMode 3 2] up0 = .next u := ⟨rfl, ⟨_, rfl⟩, ⟨_, rfl⟩⟩

theorem witness_wappend : { up0 with win := [1, 2] }.winCount < up0.params.capacity ∧
    { up0 with win := [1, 2, 3] }.winCount = up0.params.capacity := by decide

theorem witness_capacity : { up0 with win := [1, 2, 3] }.winCount ≤ up0.params.capacity ∧
    ∃ t, exec (.wappend 4) { up0 with win := [1, 2, 3] } = .next t := ⟨by decide, _, rfl⟩

/-- A commit between a clear and the events after it: CONNECT, then the last byte of a frame is one of
several. -/
theorem witness_windowOfEvents : clearsWindow .wclear = true ∧ clearsWindow .connect = true ∧
    clearsWindow .disconnect = true ∧ clearsWindow .reset = true ∧
    (∀ e ∈ [Event.rxb 0, .sendMode 3 2, .sendProf 1 2 3 4, .wsnap, .scur],
      clearsWindow e = false ∧ e.instr.wellFormed = true) ∧
    ∃ t, execAll ([Event.wclear, .rxb 0].map Event.instr) (upAt .unknown .accumulatingFrame
      [4, 0, 0, 0, 0, 1, 0, 0, 0, 0, 0, 0] none [7, 8]) = .next t ∧ t.win = [1] :=
  ⟨rfl, rfl, rfl, rfl, by decide, _, rfl, by decide⟩

theorem witness_snapshotsRepeat : (∀ i ∈ [Instr.rxb 0xFA, .scur],
      isEvent i = true ∧ i ≠ .wclear ∧ i ≠ .connect ∧ i ≠ .disconnect ∧ i ≠ .reset) ∧
    ∃ t, execAll [.rxb 0xFA, .scur] { up0 with win := [5] } = .next t ∧
      emitted { up0 with win := [5] } t = [.resp .notConnected] ∧
      ∀ r, Output.telem r ∉ [Output.resp .notConnected] :=
  ⟨by decide, _, rfl, rfl, fun r => by simp⟩

theorem witness_scur : up0.session = none ∧ (down0.InvDown ∧ down0.link = .down) ∧
    { up0 with session := some ⟨255, 255, 255, true, true⟩ }.session =
      some ⟨255, 255, 255, true, true⟩ := by decide

theorem witness_enumNames : 4#8 ≤ 4#8 ∧ 3#8 ≤ 3#8 ∧ 6#8 ≤ 6#8 ∧ 4#8 ≤ 255#8 ∧ 3#8 ≤ 255#8 ∧
    6#8 ≤ 255#8 := by decide

theorem witness_sessionChanges : ∃ t, exec (.commit pExample) up0 = .next t ∧
    t.session ≠ up0.session := ⟨_, rfl, by decide⟩

theorem witness_setMode : (3#8 ≤ 3#8 ∧ 2#8 ≤ 2#8) ∧ (3#8 < 4#8 ∨ 2#8 < 0#8) ∧
    (3#8 < 0#8 ∨ 2#8 < 3#8) := by decide

/-- spec/95, V6: fan byte 2 and lamp byte 255 come back as 1 (R113). -/
theorem test_reencode_bool : (let r := decodePayload .nonzeroTrue pV6
    (encodePayload r.mode r.runMode r.stage (if r.fanOn then 1 else 0) (if r.lampOn then 1 else 0)
      r.temp1 r.temp2).take 5) = [0xFF, 0xFF, 0xFF, 1, 1] := by decide

theorem witness_roundTrip : ((0#8 = 0 ∨ 0#8 = 1) ∧ (1#8 = 0 ∨ 1#8 = 1) ∧ 3#8 ≤ 3#8 ∧ 2#8 ≤ 2#8 ∧
      5#8 ≤ 5#8) ∧ (pExample[3] ≤ 1#8 ∧ pExample[4] ≤ 1#8) ∧ 2#8 ≤ pV6[3] ∧ 2#8 ≤ pV6[4] := by decide

theorem witness_commitRejected : up0.winCount ≤ up0.params.capacity ∧
    (decodePayload .nonzeroTrue pV3).err ≠ 0 ∧ (prm 2 .reject).enumPolicy = .reject := by decide

theorem witness_commitAccepted : { up0 with win := [1, 2, 3] }.winCount ≤ up0.params.capacity ∧
    ((decodePayload .nonzeroTrue pExample).err = 0 ∨ (prm 2 .reject).enumPolicy = .unknown) ∧
    ((decodePayload .nonzeroTrue pV3).err = 0 ∨ up0.params.enumPolicy = .unknown) := by decide

/-- A state in which 12 payload bytes of V3 have arrived. -/
def lastByteOfV3 (pol : EnumPolicy) : State :=
  upAt pol .accumulatingFrame [4, 0, 0, 0, 0, 1, 0, 0, 0, 0, 0, 0] none []

theorem witness_rejectedFrame : (lastByteOfV3 .reject).link = .up ∧
    (lastByteOfV3 .reject).rs = .accumulatingFrame ∧ (lastByteOfV3 .reject).cnt = 12 ∧
    pV3.toList = (lastByteOfV3 .reject).acc ++ [0] ∧
    (lastByteOfV3 .reject).params.enumPolicy = .reject ∧
    (decodePayload (lastByteOfV3 .reject).params.boolRule pV3).err ≠ 0 := by decide

theorem witness_unknownFrame : (lastByteOfV3 .unknown).link = .up ∧
    (lastByteOfV3 .unknown).rs = .accumulatingFrame ∧ (lastByteOfV3 .unknown).cnt = 12 ∧
    (lastByteOfV3 .unknown).winCount ≤ (lastByteOfV3 .unknown).params.capacity ∧
    pV3.toList = (lastByteOfV3 .unknown).acc ++ [0] ∧
    (lastByteOfV3 .unknown).params.enumPolicy = .unknown ∧
    (decodePayload (lastByteOfV3 .unknown).params.boolRule pV3).err ≠ 0 := by decide

theorem witness_decodeErrorItem : (lastByteOfV3 .reject).InvCount ∧
    ∃ t, exec (.rxb 0) (lastByteOfV3 .reject) = .next t ∧
      Output.decodeError .invalidEnumValue 1 ∈ emitted (lastByteOfV3 .reject) t :=
  ⟨by decide, _, rfl, by decide⟩

theorem witness_telemItem : ∃ t, exec (.commit pExample) { up0 with params := prm 2 .reject } = .next t ∧
    Output.telem rExample ∈ emitted up0 t ∧ (prm 2 .reject).enumPolicy = .reject ∧ up0.InvCount :=
  ⟨_, rfl, by decide, rfl, by decide⟩

theorem witness_oneException : isEvent (.rxb 0) = true ∧
    (∃ t, exec (.rxb 0) (lastByteOfV3 .reject) = .next t ∧
      Output.decodeError .invalidEnumValue 1 ∈ emitted (lastByteOfV3 .reject) t) ∧
    isEvent (.sendProf 1 2 3 4) = true ∧
    ∃ t, exec (.sendProf 1 2 3 4) down0 = .next t ∧
      Output.resp .sendErrorNotConnected ∈ emitted down0 t :=
  ⟨rfl, ⟨_, rfl, by decide⟩, rfl, ⟨_, rfl, by decide⟩⟩

/-- One state for each row of the table of R130, and one with LINK Down. -/
theorem witness_transitionTable : down0.link = .down ∧ up0.link = .up ∧
    (up0.rs = .seekingMarker1 ∧ 0xFA#8 = 0xFA ∧ 0xAF#8 ≠ 0xFA) ∧
    ({ up0 with rs := .seekingMarker2 }.rs = .seekingMarker2 ∧ 0x22#8 ≠ 0xAF ∧ 0x22#8 ≠ 0xFA) ∧
    ((upAt .unknown .accumulatingFrame [] none []).rs = .accumulatingFrame ∧
      (upAt .unknown .accumulatingFrame [] none []).cnt ≤ 11 ∧
      (upAt .unknown .accumulatingFrame [1, 2, 3, 4, 5, 6, 7, 8, 9, 10, 11] none []).cnt ≤ 11) ∧
    ((lastByteOfV3 .unknown).rs = .accumulatingFrame ∧ (lastByteOfV3 .unknown).cnt = 12 ∧
      pV3.toList = (lastByteOfV3 .unknown).acc ++ [0]) := by decide

theorem witness_wholeFrame : up0.link = .up ∧ up0.rs ≠ .accumulatingFrame ∧
    up0.winCount ≤ up0.params.capacity ∧
    ({ up0 with rs := .seekingMarker2, win := [1, 2, 3] }.rs ≠ .accumulatingFrame ∧
      { up0 with win := [1, 2, 3] }.winCount ≤ up0.params.capacity) ∧
    errFlags 3 2 5 = 0 ∧ (errFlags 4 0 0 ≠ 0 ∧ (prm 2 .reject).enumPolicy = .reject) := by decide

theorem witness_boundedLock :
    ((upAt .unknown .accumulatingFrame [] none []).link = .up ∧
      (upAt .unknown .accumulatingFrame [] none []).cnt ≤ 12 ∧
      pV6.toList.length = 13 - (upAt .unknown .accumulatingFrame [] none []).cnt) ∧
    ((lastByteOfV3 .unknown).cnt ≤ 12 ∧ [0xFA#8].length = 13 - (lastByteOfV3 .unknown).cnt) ∧
    (up0.link = .up ∧ up0.rs ≠ .accumulatingFrame) ∧
    { up0 with rs := .seekingMarker2 }.rs ≠ .accumulatingFrame := by decide

/-- Noise that ends in `FA`, a frame whose payload holds `FA AF`, noise that begins with `AF`. -/
theorem witness_intendedFrames : up0.link = .up ∧ up0.rs = .seekingMarker1 ∧ up0.acc = [] ∧
    NoMarker [0x11, 0xFA, 0x22, 0xFA] ∧
    ∀ f ∈ [(pV6, [0xAF#8, 0xFA#8]), (pExample, [])], NoMarker f.2 := by decide

theorem witness_chunkBound : (lastByteOfV3 .unknown).Inv ∧ up0.Inv ∧ up0.rs = .seekingMarker1 ∧
    ∃ t, exec (.rx [0]) (lastByteOfV3 .unknown) = .next t :=
  ⟨by decide, by decide, rfl, _, rfl⟩

theorem witness_framing : (lastByteOfV3 .unknown).link = (upAt .reject .accumulatingFrame
      [9, 9, 9, 9, 9, 9, 9, 9, 9, 9, 9, 9] (some ⟨0, 0, 0, false, false⟩) [7]).link ∧
    (lastByteOfV3 .unknown).position = (upAt .reject .accumulatingFrame
      [9, 9, 9, 9, 9, 9, 9, 9, 9, 9, 9, 9] (some ⟨0, 0, 0, false, false⟩) [7]).position := by decide

theorem witness_stepKeeps : { up0 with pending := [.rxByte 0xFA] }.Inv ∧
    ∃ t, step { up0 with pending := [.rxByte 0xFA] } = .next t := ⟨by decide, _, rfl⟩

theorem witness_readOnly : ∃ t, exec (.rxb 0) (lastByteOfV3 .unknown) = .next t := ⟨_, rfl⟩

theorem witness_writers : (∃ t, exec .connect down0 = .next t ∧ t.link ≠ down0.link) ∧
    (∃ t, exec (.rxb 0xFA) up0 = .next t ∧ t.rs ≠ up0.rs) ∧
    (∃ t, exec (.rxb 1) (upAt .unknown .accumulatingFrame [] none []) = .next t ∧ t.acc ≠ []) ∧
    (∃ t, exec (.wappend 5) up0 = .next t ∧ t.win ≠ up0.win) ∧
    ∃ t, exec (.setMode 1 1) up0 = .next t ∧ t.codec ≠ up0.codec :=
  ⟨⟨_, rfl, by decide⟩, ⟨_, rfl, by decide⟩, ⟨_, rfl, by decide⟩, ⟨_, rfl, by decide⟩,
    ⟨_, rfl, by decide⟩⟩

theorem witness_refused : exec (.sendMode 4 0) up0 = .refused .operandDomain ∧
    (Instr.telemetry 0 0 0 0 0 0 0).wellFormed = true := ⟨rfl, rfl⟩

theorem witness_stepRuns : (up0.slot = none ∧ up0.pending = []) ∧
    ({ up0 with pending := [.command 6 0, .resetPin] }.slot = none ∧
      { up0 with pending := [.command 6 0, .resetPin] }.pending = .command 6 0 :: [.resetPin]) ∧
    decodePort (.command 6 0) = .ok .connect ∧
    decodePort (.command 0 0) = .error (.reservedCommand 0) ∧
    { up0 with slot := some [0xFA, 0xAF, 1, 1, 1] }.slot = some [0xFA, 0xAF, 1, 1, 1] ∧
    decodeFrame [0xFA, 0xAF, 1, 1, 1] = .ok (.setMode 1 1) ∧
    decodeFrame [0xFA] = .error .noSuchFrame := by decide

theorem witness_oneBlockStep : up0.slot = none ∧ step up0 = .next up0 ∧
    ∃ t, step { up0 with pending := [.rxByte 0xFA, .rxByte 0xAF] } = .next t ∧
      t.rs = .seekingMarker2 ∧ t.pending = [.rxByte 0xAF] := ⟨rfl, rfl, _, rfl, rfl, rfl⟩

theorem witness_chunkSteps : up0.slot = none ∧ up0.pending = [] ∧
    ∃ t, stepN 2 (up0.feed [0xFA, 0xAF]) = .next t ∧ t.rs = .accumulatingFrame ∧ t.pending = [] :=
  ⟨rfl, rfl, _, rfl, rfl, rfl⟩

theorem witness_commandPort : (0#4 = 0 ∨ 8#4 ≤ 0#4) ∧ (8#4 = 0 ∨ 8#4 ≤ 8#4) ∧
    (15#4 = 0 ∨ 8#4 ≤ 15#4) ∧ ¬(7#4 = 0 ∨ 8#4 ≤ 7#4) := by decide

theorem witness_decodeOfEncode : (Instr.sendMode 3 2).wellFormed = true ∧
    encode (.sendMode 3 2) = some (.port (.command 1 0x203)) := by decide

theorem witness_instances : ∃ n, stepInstance 1 [up0, { down0 with pending := [.command 6 0] }] = .next n ∧
    n ≠ [up0, { down0 with pending := [.command 6 0] }] := ⟨_, rfl, by decide⟩

end Sys2Proof.Tests
end

section
/-! Proofs about the block's scope: which instructions complete, the machine's step as one step of the
block, and a whole telemetry frame from the wire to the session and the window. -/

namespace Sys2Proof.Proofs

open Sys2Proof.Machine

/-! ### which instructions complete (R8, R175) -/

/-- All that executing an instruction can answer: a next state, or the one refusal of R175, and that only
for operands outside their domain. -/
theorem exec_completes_or_refuses (i : Instr) (s : State) :
    (∃ t, exec i s = .next t) ∨
      (exec i s = .refused .operandDomain ∧ i.wellFormed = false) := by
  cases i with
  | sendMode mode runMode =>
    cases hd : modeOperandsDefined mode runMode with
    | true => exact .inl ⟨_, by simp only [exec, execSendMode, sendMode, hd]; rfl⟩
    | false => exact .inr ⟨by simp only [exec, execSendMode, sendMode, hd]; rfl, hd⟩
  | setMode mode runMode =>
    cases hd : modeOperandsDefined mode runMode with
    | true => exact .inl ⟨_, by simp only [exec, execSetMode, hd]; rfl⟩
    | false => exact .inr ⟨by simp only [exec, execSetMode, hd]; rfl, hd⟩
  | _ => exact .inl ⟨_, rfl⟩

/-- Settles O49, from the two answers that exec can give. -/
theorem wellFormedInstructionsComplete : Obligations.WellFormedInstructionsComplete := by
  intro i s
  rcases exec_completes_or_refuses i s with hnext | ⟨hrefused, hill⟩
  · obtain ⟨t, ht⟩ := hnext
    exact ⟨fun _ => ⟨t, ht⟩, fun r hr => by simp [ht] at hr⟩
  · refine ⟨fun hwf => by simp [hill] at hwf, fun r hr => ⟨?_, hill⟩⟩
    simpa [hrefused] using hr.symm

/-! ### events are steps of the block (R8, R85) -/

/-- The nine rows that an `Event` names are events of R85. -/
@[simp] theorem isEvent_instr (e : Event) : isEvent e.instr = true := by cases e <;> rfl

/-- Executing an event on the machine is the block's step, applied to the machine. -/
theorem exec_event (e : Event) (s : State) :
    exec e.instr s = s.applyOutcome (blockStep s.params s.toBlock e) := by cases e <;> rfl

/-- Settles O50, one arm of exec for each event. -/
theorem eventsAreBlockSteps : Obligations.EventsAreBlockSteps :=
  fun e s => ⟨isEvent_instr e, exec_event e s⟩

/-- A next state of the machine comes from an effect of the block, applied to the machine. -/
theorem applyOutcome_eq_next {s t : State} {o : Host.Outcome Effect Fault Refusal}
    (h : s.applyOutcome o = .next t) : ∃ f, o = .next f ∧ t = s.apply f := by
  cases o with
  | next f => exact ⟨f, rfl, (Host.Outcome.next.inj h).symm⟩
  | fault r => cases h
  | refused r => cases h

/-! ### what a step executes (R8, R203; log entries 3 and 15) -/

section Step

variable {s : State} {x : Stimulus} {rest : List Stimulus} {e : Event} {bytes : List Byte}
  {i : Instr} {why : DecodeRefusal}

/-- With nothing presented the block holds its state (R203). -/
theorem step_idle (hslot : s.slot = none) (hpending : s.pending = []) : step s = .next s := by
  simp only [step, fetch, hslot, hpending]

/-- A presented event is taken from the queue and executed. -/
theorem step_event (hslot : s.slot = none) (hpending : s.pending = x :: rest)
    (hdec : decodePort x = .ok e) : step s = exec e.instr { s with pending := rest } := by
  simp only [step, fetch, hslot, hpending, decode, hdec]

/-- Port bits that decode to no event are refused (R84). -/
theorem step_reserved (hslot : s.slot = none) (hpending : s.pending = x :: rest)
    (hdec : decodePort x = .error why) : step s = .refused (.undecodable why) := by
  simp only [step, fetch, hslot, hpending, decode, hdec]

/-- A wire frame in the test slot is executed first and leaves the slot empty. -/
theorem step_slot (hslot : s.slot = some bytes) (hdec : decodeFrame bytes = .ok i) :
    step s = exec i { s with slot := none } := by
  simp only [step, fetch, hslot, decode, hdec]

/-- Bytes of no wire format in the test slot are refused (log entry 14). -/
theorem step_slot_noSuchFrame (hslot : s.slot = some bytes)
    (hdec : decodeFrame bytes = .error why) : step s = .refused (.undecodable why) := by
  simp only [step, fetch, hslot, decode, hdec]

/-- All that a completed step can be while the test slot is empty: idle, or one step of the block on the
event presented first. -/
theorem step_next_cases {t : State} (hslot : s.slot = none) (h : step s = .next t) :
    (s.pending = [] ∧ t = s) ∨
      ∃ (x : Stimulus) (rest : List Stimulus) (e : Event) (f : Effect), s.pending = x :: rest ∧
        decodePort x = .ok e ∧ blockStep s.params s.toBlock e = .next f ∧
        t = State.apply { s with pending := rest } f := by
  cases hpending : s.pending with
  | nil =>
    rw [step_idle hslot hpending] at h
    exact .inl ⟨rfl, (Host.Outcome.next.inj h).symm⟩
  | cons x rest =>
    cases hdec : decodePort x with
    | error why =>
      rw [step_reserved hslot hpending hdec] at h
      cases h
    | ok e =>
      rw [step_event hslot hpending hdec, exec_event] at h
      obtain ⟨f, hf, ht⟩ := applyOutcome_eq_next h
      exact .inr ⟨x, rest, e, f, rfl, hdec, hf, ht⟩

end Step

/-- Settles O52, one clause for each thing the step can find in the slot and the queue. -/
theorem stepRunsDecodedInstruction : Obligations.StepRunsDecodedInstruction :=
  ⟨fun _ => step_idle, fun _ _ _ _ => step_event, fun _ _ _ _ => step_reserved,
    fun _ _ _ => step_slot, fun _ _ _ => step_slot_noSuchFrame⟩

/-- Settles O51, from the cases of a completed step: applying an effect of the block does not fill the
slot. -/
theorem stepIsOneBlockStep : Obligations.StepIsOneBlockStep := by
  intro s t hslot h
  have hcases := step_next_cases hslot h
  refine ⟨?_, hcases⟩
  rcases hcases with ⟨-, rfl⟩ | ⟨x, rest, e, f, -, -, -, rfl⟩
  · exact hslot
  · rw [State.apply_slot]
    exact hslot

/-! ### a whole frame on RX (R121 to R124, R130) -/

section Receive

variable {prm : Params} {x : Block}

/-- After an effect without output the next operation is all there is to see. -/
theorem andThen_of_no_output (y : Block) (f : Block → Effect) :
    Effect.andThen ⟨y, []⟩ f = f y := rfl

/-- A run of one byte is that byte's step (R125). -/
theorem receiveBytes_singleton (b : Byte) : receiveBytes prm [b] x = receiveByte prm b x := by
  simp only [receiveBytes, Effect.andThen, Block.silent_block, Block.silent_outputs,
    List.append_nil]

/-- A first byte that emits nothing leaves the rest of the run to the state it led to. -/
theorem receiveBytes_cons_of_no_output {y : Block} {b : Byte}
    (h : receiveByte prm b x = ⟨y, []⟩) (bytes : List Byte) :
    receiveBytes prm (b :: bytes) x = receiveBytes prm bytes y := by
  rw [receiveBytes, h, andThen_of_no_output]

/-- The marker, received in either seeking phase, opens a frame (R121, R122). -/
theorem receiveBytes_marker (hlink : x.link = .up) (hseek : x.rs ≠ .accumulatingFrame) :
    receiveBytes prm [marker1, marker2] x = ⟨{ x with rs := .accumulatingFrame, acc := [] }, []⟩ := by
  obtain hrs | hrs : x.rs = .seekingMarker1 ∨ x.rs = .seekingMarker2 := by
    simpa [hseek] using ResyncPhase.cases_three x.rs
  · have hfirst := receiveByte_seek1 (prm := prm) hlink hrs marker1
    rw [if_pos rfl] at hfirst
    rw [receiveBytes_cons_of_no_output hfirst, receiveBytes_singleton,
      receiveByte_seek2 (x := { x with rs := .seekingMarker2 }) hlink rfl, if_pos rfl]
  · have hfirst := receiveByte_seek2 (prm := prm) hlink hrs marker1
    rw [if_neg (by decide), if_pos rfl] at hfirst
    rw [receiveBytes_cons_of_no_output hfirst, receiveBytes_singleton,
      receiveByte_seek2 hlink hrs, if_pos rfl]

/-- Bytes that do not fill the frame are stored, whatever their values (R123, R128). -/
theorem receiveBytes_store (bytes : List Byte) (hlink : x.link = .up)
    (hrs : x.rs = .accumulatingFrame) (hroom : x.acc.length + bytes.length ≤ 12) :
    receiveBytes prm bytes x = ⟨{ x with acc := x.acc ++ bytes }, []⟩ := by
  induction bytes generalizing x with
  | nil => simp only [receiveBytes, List.append_nil, Block.silent]
  | cons b bs ih =>
    rw [List.length_cons] at hroom
    rw [receiveBytes_cons_of_no_output (receiveByte_store hlink hrs (by omega) b),
      ih (x := { x with acc := x.acc ++ [b] }) hlink hrs
        (by rw [List.length_append, List.length_singleton]; omega),
      List.append_assoc, List.singleton_append]

/-- The bytes that fill the frame up to the 13th commit it, with the resynchronizer reset (R124). -/
theorem receiveBytes_complete (bytes : List Byte) (hlink : x.link = .up)
    (hrs : x.rs = .accumulatingFrame) (hcnt : x.acc.length ≤ 12)
    (hlen : x.acc.length + bytes.length = 13) :
    receiveBytes prm bytes x =
      commitPayload prm (payloadOf (x.acc ++ bytes)) { x with rs := .seekingMarker1, acc := [] } := by
  rcases List.eq_nil_or_concat' bytes with rfl | ⟨init, last, rfl⟩
  · rw [List.length_nil] at hlen
    omega
  · rw [List.length_append, List.length_singleton] at hlen
    rw [receiveBytes_append, receiveBytes_store init hlink hrs (by omega), andThen_of_no_output,
      receiveBytes_singleton,
      receiveByte_complete (x := { x with acc := x.acc ++ init }) hlink hrs
        (by rw [List.length_append]; omega),
      List.append_assoc]

/-- Marker and payload, received in either seeking phase, are the commit of that payload (R130). -/
theorem receiveBytes_frame (p : Payload) (hlink : x.link = .up)
    (hseek : x.rs ≠ .accumulatingFrame) :
    receiveBytes prm ([marker1, marker2] ++ p.toList) x =
      commitPayload prm p { x with rs := .seekingMarker1, acc := [] } := by
  rw [receiveBytes_append, receiveBytes_marker hlink hseek, andThen_of_no_output,
    receiveBytes_complete (x := { x with rs := .accumulatingFrame, acc := [] }) p.toList hlink rfl
      (Nat.zero_le 12) (by simp),
    List.nil_append, payloadOf_toList]

end Receive

/-! ### the commit of a frame (R165) -/

section Commit

variable {prm : Params} {p : Payload}

/-- A defined record, or any record under UNKNOWN, is latched, appended and delivered. -/
theorem commitPayload_accepted (x : Block)
    (h : (decodePayload prm.boolRule p).err = 0 ∨ prm.enumPolicy = .unknown) :
    commitPayload prm p x = ⟨{ x with
      session := some (sessionOf (decodePayload prm.boolRule p))
      win := appended prm.capacity x.win (sampleOf (decodePayload prm.boolRule p)) },
      [.telem (decodePayload prm.boolRule p)]⟩ := by
  rcases commitPayload_cases prm p x with ⟨herr, hreject, -⟩ | ⟨-, heq⟩
  · exact absurd h (by simp only [herr, hreject, reduceCtorEq, or_self, not_false_eq_true])
  · exact heq

/-- Under REJECT a record with an undefined enum byte leaves only its error item. -/
theorem commitPayload_rejected (x : Block) (herr : (decodePayload prm.boolRule p).err ≠ 0)
    (hreject : prm.enumPolicy = .reject) :
    commitPayload prm p x =
      ⟨x, [.decodeError .invalidEnumValue (decodePayload prm.boolRule p).err]⟩ := by
  rcases commitPayload_cases prm p x with ⟨-, -, heq⟩ | ⟨h, -⟩
  · exact heq
  · exact absurd h (by simp only [herr, hreject, reduceCtorEq, or_self, not_false_eq_true])

end Commit

/-! ### the row TELEMETRY (R71; log entry 10) -/

/-- The 13 bytes of ENC_TELEMETRY are a payload (R112). -/
theorem encodePayload_length (mode runMode stage fan lamp : Byte) (t1 t2 : U32) :
    (encodePayload mode runMode stage fan lamp t1 t2).length = 13 := rfl

/-- Decoding the encoded fields gives them back, fan and lamp as their flags (R101, R103, R112). -/
theorem decodePayload_encodePayload (rule : BoolRule) (mode runMode stage fan lamp : Byte)
    (t1 t2 : U32) :
    decodePayload rule (payloadOf (encodePayload mode runMode stage fan lamp t1 t2)) =
      ⟨mode, runMode, stage, fan != 0, lamp != 0, t1, t2, errFlags mode runMode stage⟩ := by
  cases rule
  simp [decodePayload, memRead1, memRead4, payloadOf, encodePayload, le32, boolOf]

/-- A TELEMETRY frame that arrives while a marker is sought is the commit of its payload (R130). -/
theorem exec_telemetry_of_seeking {s : State} (hlink : s.link = .up)
    (hseek : s.rs ≠ .accumulatingFrame) (mode runMode stage fan lamp : Byte) (t1 t2 : U32) :
    exec (.telemetry mode runMode stage fan lamp t1 t2) s =
      .next (s.apply (commitPayload s.params
        (payloadOf (encodePayload mode runMode stage fan lamp t1 t2))
        { s.toBlock with rs := .seekingMarker1, acc := [] })) := by
  have hbytes : frameT mode runMode stage fan lamp t1 t2 = [marker1, marker2] ++
      (payloadOf (encodePayload mode runMode stage fan lamp t1 t2)).toList := by
    rw [toList_payloadOf _ (encodePayload_length ..)]
    rfl
  simp only [exec, execTelemetry, hbytes, receiveBytes_frame _ hlink hseek]

/-- Settles O38: the frame is the commit of its payload, which decodes to the record; then the two
branches of the commit. -/
theorem wholeFrameReachesSessionAndWindow : Obligations.WholeFrameReachesSessionAndWindow := by
  intro s mode runMode stage fan lamp t1 t2 r hlink hseek hwin hr
  have hdec : decodePayload s.params.boolRule
      (payloadOf (encodePayload mode runMode stage fan lamp t1 t2)) = r :=
    (decodePayload_encodePayload ..).trans hr.symm
  rw [exec_telemetry_of_seeking hlink hseek]
  constructor
  · intro haccept
    rw [commitPayload_accepted _ (by rwa [hdec]), hdec, appended_of_le hwin, hr]
    rfl
  · intro herr hreject
    rw [commitPayload_rejected _ (by rwa [hdec]) hreject, hdec]
    rfl

end Sys2Proof.Proofs
end

section
/-! Proofs about the block's state: the values after reset, the invariants of R34, which instruction
writes which register, what exec reads, where frames lie, and several instances side by side. -/

namespace Sys2Proof.Proofs

open Sys2Proof.Machine

/-! ### all that an executed instruction can do (R32) -/

/-- Executing `i` in `s` may end in `t`: an instruction returns a codec value, answers without a write,
makes a fresh instance, writes the window or the session, commits, or receives bytes. -/
inductive ExecutesTo (s : State) : Instr → State → Prop
  | codec {i : Instr} (v : CodecResult) (hevent : isEvent i = false)
      (hcommit : mayCommit i = false) : ExecutesTo s i (s.setCodec v)
  | answer {i : Instr} (items : List Output) : ExecutesTo s i (s.apply ⟨s.toBlock, items⟩)
  | fresh {i : Instr} (l : Link) (items : List Output)
      (hi : i = .connect ∨ i = .disconnect ∨ i = .reset) :
      ExecutesTo s i (s.apply ⟨freshInstance l, items⟩)
  | clear : ExecutesTo s .wclear (s.apply (clearWindow s.toBlock))
  | append (v : Sample) :
      ExecutesTo s (.wappend v) (s.apply (appendSample s.params.capacity v s.toBlock).silent)
  | latch (r : Record) : ExecutesTo s (.supdate r) (s.apply (updateSession r s.toBlock).silent)
  | commit (p : Payload) : ExecutesTo s (.commit p) (s.apply (commitPayload s.params p s.toBlock))
  | receive {i : Instr} (hcommit : mayCommit i = true) (hne : ∀ p, i ≠ .commit p) :
      ExecutesTo s i (s.apply (receiveBytes s.params (receivedBytes i) s.toBlock))

/-- A send leaves the block as it is, whatever it answers. -/
theorem ExecutesTo.send (s : State) (i : Instr) (bytes : List Byte) :
    ExecutesTo s i (s.apply (sendFrame bytes s.toBlock)) := by
  rcases sendFrame_cases bytes s.toBlock with ⟨-, h⟩ | ⟨-, h⟩ <;> rw [h] <;> exact .answer _

/-- Every next state that exec gives is one of the cases of `ExecutesTo`. -/
theorem executesTo_of_exec {i : Instr} {s t : State} (h : exec i s = .next t) :
    ExecutesTo s i t := by
  cases i with
  | sendMode mode runMode =>
    obtain ⟨f, hf, rfl⟩ := applyOutcome_eq_next h
    unfold sendMode at hf
    split at hf
    · cases hf
      exact .send ..
    · cases hf
  | sendProf => cases h; exact .send ..
  | setMode mode runMode =>
    simp only [exec, execSetMode] at h
    split at h
    · cases h
      exact .codec _ rfl rfl
    · cases h
  | setProfile => cases h; exact .codec _ rfl rfl
  | decodeTelemetry => cases h; exact .codec _ rfl rfl
  | encTelemetry => cases h; exact .codec _ rfl rfl
  | reset => cases h; exact .fresh _ _ (.inr (.inr rfl))
  | connect => cases h; exact .fresh _ _ (.inl rfl)
  | disconnect => cases h; exact .fresh _ _ (.inr (.inl rfl))
  | wsnap => cases h; exact .answer _
  | scur => cases h; exact .answer _
  | wclear => cases h; exact .clear
  | wappend v => cases h; exact .append v
  | supdate r => cases h; exact .latch r
  | commit p => cases h; exact .commit p
  | rxb b =>
    cases h
    rw [← receiveBytes_singleton]
    exact .receive (i := .rxb b) rfl nofun
  | rx bytes => cases h; exact .receive (i := .rx bytes) rfl nofun
  | rxFrame mode runMode stage fan lamp t1 t2 =>
    cases h
    rw [← receiveBytes_append]
    exact .receive (i := .rxFrame mode runMode stage fan lamp t1 t2) rfl nofun
  | telemetry mode runMode stage fan lamp t1 t2 =>
    cases h
    exact .receive (i := .telemetry mode runMode stage fan lamp t1 t2) rfl nofun

/-! ### the six invariants on the block (R34) -/

/-- The invariants of R34 as a predicate of what they read, the parameters and the block; while Down the
block is as after reset. -/
structure BlockInv (prm : Params) (x : Block) : Prop where
  bufferIdle : x.rs ≠ .accumulatingFrame → x.acc = []
  count : x.acc.length ≤ 12
  window : x.win.length ≤ prm.capacity
  down : x.link = .down → x = freshInstance .down
  session : prm.enumPolicy = .reject → ∀ v ∈ x.session,
    v.mode ≤ 3#8 ∧ v.runMode ≤ 2#8 ∧ v.stage ≤ 5#8
  samples : ∀ y ∈ x.win, y.toNat ≤ 2 ^ 33 - 2

/-- Invariant 4 on the block: Down with every register at its reset value is the fresh instance. -/
theorem eq_freshInstance_down_iff (x : Block) (hlink : x.link = .down) :
    x = freshInstance .down ↔
      x.rs = .seekingMarker1 ∧ x.cnt = 0 ∧ x.sValid = false ∧ x.winCount = 0 := by
  obtain ⟨link, rs, acc, session, win⟩ := x
  cases hlink
  simp [freshInstance, Block.cnt, Block.sValid, Block.winCount]

/-- The machine meets R34 exactly when its block does under its parameters. -/
theorem inv_iff_blockInv (s : State) : s.Inv ↔ BlockInv s.params s.toBlock := by
  constructor
  · rintro ⟨hidle, hcount, hwindow, hdown, hsession, hsamples⟩
    exact {
      bufferIdle := fun hrs => List.length_eq_zero_iff.1 (hidle hrs)
      count := hcount
      window := hwindow
      down := fun hlink => (eq_freshInstance_down_iff _ hlink).2 (hdown hlink)
      session := hsession
      samples := by simpa using hsamples }
  · intro h
    exact ⟨fun hrs => List.length_eq_zero_iff.2 (h.bufferIdle hrs), h.count, h.window,
      fun hlink => (eq_freshInstance_down_iff _ hlink).1 (h.down hlink), h.session,
      by simpa using h.samples⟩

section Keep

variable {prm : Params} {x : Block}

/-- A fresh instance meets the invariants. -/
theorem BlockInv.of_fresh (prm : Params) (l : Link) : BlockInv prm (freshInstance l) where
  bufferIdle _ := rfl
  count := Nat.zero_le _
  window := Nat.zero_le _
  down hlink := by cases l with
    | down => rfl
    | up => cases hlink
  session _ := nofun
  samples := nofun

/-- While Up the resynchronizer may be written, with at most 12 bytes, and none outside a frame. -/
theorem BlockInv.setResync (h : BlockInv prm x) (hup : x.link = .up) {rs : ResyncPhase}
    {acc : List Byte} (hidle : rs ≠ .accumulatingFrame → acc = []) (hcount : acc.length ≤ 12) :
    BlockInv prm { x with rs := rs, acc := acc } :=
  { h with
    bufferIdle := hidle
    count := hcount
    down := fun hlink => by cases hup.symm.trans hlink }

/-- Clearing the window keeps the invariants, Up or Down. -/
theorem BlockInv.clearWindow (h : BlockInv prm x) : BlockInv prm (x.setWindow []) :=
  { h with
    window := Nat.zero_le _
    down := fun hlink => by rw [h.down hlink]; rfl
    samples := nofun }

/-- A record that the policy accepts has defined enum bytes under REJECT (R106). -/
theorem sessionOf_defined {p : Payload}
    (hok : (decodePayload prm.boolRule p).err = 0 ∨ prm.enumPolicy = .unknown)
    (hreject : prm.enumPolicy = .reject) :
    (sessionOf (decodePayload prm.boolRule p)).mode ≤ 3#8 ∧
    (sessionOf (decodePayload prm.boolRule p)).runMode ≤ 2#8 ∧
    (sessionOf (decodePayload prm.boolRule p)).stage ≤ 5#8 := by
  have herr : (decodePayload prm.boolRule p).err = 0 := by simpa [hreject] using hok
  rw [decodePayload_err, errFlags_eq_zero] at herr
  simpa [sessionOf, modeDefined, runModeDefined, stageDefined] using herr

/-- A commit while Up keeps the invariants. -/
theorem BlockInv.commitPayload (h : BlockInv prm x) (hup : x.link = .up) (p : Payload) :
    BlockInv prm (commitPayload prm p x).block := by
  rcases commitPayload_cases prm p x with ⟨-, -, heq⟩ | ⟨hok, heq⟩ <;> rw [heq]
  · exact h
  · exact { h with
      window := appended_length_le prm.capacity_pos _ _
      down := fun hlink => by cases hup.symm.trans hlink
      session := by
        rintro hreject v ⟨⟩
        exact sessionOf_defined hok hreject
      samples := fun y hy => by
        rcases mem_appended hy with hold | rfl
        · exact h.samples y hold
        · exact sampleOf_le _ }

/-- A received byte keeps the invariants. -/
theorem BlockInv.receiveByte (h : BlockInv prm x) (b : Byte) :
    BlockInv prm (receiveByte prm b x).block := by
  rcases receiveByte_cases prm b x with heq | ⟨hup, hrs, -, heq⟩ | ⟨hup, -, -, heq⟩ |
    ⟨hup, hrs, heq⟩ | ⟨hup, hrs, hroom, heq⟩ | ⟨hup, -, -, heq⟩ <;> rw [heq]
  case inl => exact h
  case inr.inl => exact h.setResync hup (fun _ => h.bufferIdle (by simp [hrs])) h.count
  case inr.inr.inl => exact h.setResync hup (fun _ => rfl) (Nat.zero_le _)
  case inr.inr.inr.inl => exact h.setResync hup (fun _ => h.bufferIdle (by simp [hrs])) h.count
  case inr.inr.inr.inr.inl =>
    exact h.setResync hup (fun hne => absurd hrs hne) (by
      rw [List.length_append]
      exact Nat.add_le_add_right hroom 1)
  case inr.inr.inr.inr.inr =>
    exact (h.setResync hup (fun _ => rfl) (Nat.zero_le _)).commitPayload hup _

/-- A run of received bytes keeps the invariants. -/
theorem BlockInv.receiveBytes (h : BlockInv prm x) (bytes : List Byte) :
    BlockInv prm (receiveBytes prm bytes x).block :=
  receiveBytes_rel (R := fun x e => BlockInv prm x → BlockInv prm e.block) (fun _ h => h)
    (fun hfirst hrest h => hrest (hfirst h)) (fun b _ h => h.receiveByte b) bytes x h

end Keep

/-! ### the step keeps the invariants (R34) -/

/-- An instruction that has an encoding keeps the invariants. (COMMIT, SUPDATE and WAPPEND by themselves
do not: while Down they would write what invariant 4 says is empty.) -/
theorem ExecutesTo.keeps_blockInv {i : Instr} {s t : State} (h : ExecutesTo s i t)
    (henc : i.encodable = true) (hinv : BlockInv s.params s.toBlock) :
    BlockInv t.params t.toBlock := by
  cases h with
  | codec => exact hinv
  | answer => exact hinv
  | fresh l => exact .of_fresh _ l
  | clear => exact hinv.clearWindow
  | receive => exact hinv.receiveBytes _
  | append | latch | commit => cases henc

/-- Bytes that are a wire frame decode to a row that has an encoding (R89). -/
theorem encodable_of_decodeFrame {bytes : List Byte} {i : Instr} (h : decodeFrame bytes = .ok i) :
    i.encodable = true := by
  unfold decodeFrame at h
  split at h
  · split at h <;> cases h
    rfl
  · split at h <;> cases h
    rfl
  · split at h <;> cases h
    rfl
  · cases h

/-- The events have an encoding (R85, R89). -/
theorem encodable_instr (e : Event) : e.instr.encodable = true := by cases e <;> rfl

/-- All that a completed step can be, whatever the queue and the test slot hold: idle, or one encodable
instruction executed on the same block with the same parameters. -/
theorem step_eq_next_cases {s t : State} (h : step s = .next t) :
    t = s ∨ ∃ (i : Instr) (u : State), i.encodable = true ∧ u.toBlock = s.toBlock ∧
      u.params = s.params ∧ exec i u = .next t := by
  cases hslot : s.slot with
  | some bytes =>
    cases hdec : decodeFrame bytes with
    | error why =>
      rw [step_slot_noSuchFrame hslot hdec] at h
      cases h
    | ok i =>
      rw [step_slot hslot hdec] at h
      exact .inr ⟨i, { s with slot := none }, encodable_of_decodeFrame hdec, rfl, rfl, h⟩
  | none =>
    cases hpending : s.pending with
    | nil =>
      rw [step_idle hslot hpending] at h
      exact .inl (Host.Outcome.next.inj h).symm
    | cons x rest =>
      cases hdec : decodePort x with
      | error why =>
        rw [step_reserved hslot hpending hdec] at h
        cases h
      | ok e =>
        rw [step_event hslot hpending hdec] at h
        exact .inr ⟨e.instr, { s with pending := rest }, encodable_instr e, rfl, rfl, h⟩

/-- Settles O44: the block after reset is a fresh instance. -/
theorem invariantsHoldAtReset : Obligations.InvariantsHoldAtReset :=
  (inv_iff_blockInv _).2 (.of_fresh _ .down)

/-- Settles O45: a step executes an encodable instruction on the block or holds it, and every encodable
instruction keeps the invariants on the block. -/
theorem stepKeepsInvariants : Obligations.StepKeepsInvariants := by
  refine ⟨invariantsHoldAtReset, fun s t hinv hstep => ?_⟩
  rcases step_eq_next_cases hstep with rfl | ⟨i, u, henc, hblock, hparams, hexec⟩
  · exact hinv
  · rw [inv_iff_blockInv] at hinv ⊢
    refine (executesTo_of_exec hexec).keeps_blockInv henc ?_
    rwa [hblock, hparams]

/-! ### where frames lie (R24, R25, R128, R135) -/

/-- The table of R25 for a byte received with LINK Up: the next position, and how many frames the byte
completes. It reads the position and the byte alone. -/
def advance (b : Byte) : ResyncPhase × Nat → (ResyncPhase × Nat) × Nat
  | (.seekingMarker1, n) => (if b = marker1 then (.seekingMarker2, n) else (.seekingMarker1, n), 0)
  | (.seekingMarker2, n) =>
    (if b = marker2 then (.accumulatingFrame, 0)
      else if b = marker1 then (.seekingMarker2, n) else (.seekingMarker1, n), 0)
  | (.accumulatingFrame, n) =>
    if n ≤ 11 then ((.accumulatingFrame, n + 1), 0) else ((.seekingMarker1, 0), 1)

section Framing

variable {prm prm' : Params} {x y : Block}

/-- A commit does not move the position and emits one item. -/
theorem commitPayload_position (prm : Params) (p : Payload) (x : Block) :
    (commitPayload prm p x).block.position = x.position ∧
      (commitPayload prm p x).outputs.length = 1 := by
  obtain ⟨-, hrs, hacc⟩ := commitPayload_frame prm p x
  obtain ⟨o, -, hout⟩ := commitPayload_out prm p x
  simp only [Block.position, Block.cnt, hrs, hacc, hout, List.length_singleton, and_self]

/-- A byte received while Up moves the position and emits items as the table of R25 says. -/
theorem receiveByte_advance (hup : x.link = .up) (b : Byte) :
    ((receiveByte prm b x).block.position, (receiveByte prm b x).outputs.length) =
      advance b x.position := by
  have hpos : x.position = (x.rs, x.acc.length) := rfl
  rcases ResyncPhase.cases_three x.rs with hrs | hrs | hrs <;> rw [hpos, hrs, advance]
  · rw [receiveByte_seek1 hup hrs]
    split_ifs <;> simp only [Block.position, Block.cnt, hrs, List.length_nil]
  · rw [receiveByte_seek2 hup hrs]
    split_ifs <;> simp only [Block.position, Block.cnt, hrs, List.length_nil]
  · by_cases hroom : x.acc.length ≤ 11
    · rw [receiveByte_store hup hrs hroom, if_pos hroom]
      simp only [Block.position, Block.cnt, hrs, List.length_append, List.length_cons,
        List.length_nil]
    · rw [receiveByte_complete hup hrs (Nat.not_le.1 hroom), if_neg hroom]
      exact Prod.ext (commitPayload_position ..).1 (commitPayload_position ..).2

/-- One byte on two blocks with the same LINK and position. -/
theorem receiveByte_framing (hlink : x.link = y.link) (hpos : x.position = y.position) (b : Byte) :
    (receiveByte prm b x).block.position = (receiveByte prm' b y).block.position ∧
      (receiveByte prm b x).outputs.length = (receiveByte prm' b y).outputs.length := by
  rcases Link.down_or_up x.link with hx | hx
  · rw [receiveByte_down hx, receiveByte_down (hlink.symm.trans hx)]
    exact ⟨hpos, rfl⟩
  · rw [← Prod.mk.injEq, receiveByte_advance hx, receiveByte_advance (hlink.symm.trans hx), hpos]

/-- A run of bytes on two blocks with the same LINK and position. -/
theorem receiveBytes_framing (bytes : List Byte) (hlink : x.link = y.link)
    (hpos : x.position = y.position) :
    (receiveBytes prm bytes x).block.position = (receiveBytes prm' bytes y).block.position ∧
      (receiveBytes prm bytes x).outputs.length = (receiveBytes prm' bytes y).outputs.length := by
  induction bytes generalizing x y with
  | nil => exact ⟨hpos, rfl⟩
  | cons b bs ih =>
    obtain ⟨hfirstPos, hfirstLen⟩ := receiveByte_framing (prm := prm) (prm' := prm') hlink hpos b
    have hfirstLink : (receiveByte prm b x).block.link = (receiveByte prm' b y).block.link := by
      rw [receiveByte_link, receiveByte_link, hlink]
    obtain ⟨hrestPos, hrestLen⟩ := ih hfirstLink hfirstPos
    simp only [receiveBytes, Effect.andThen_block, Effect.andThen_outputs, List.length_append]
    exact ⟨hrestPos, by rw [hfirstLen, hrestLen]⟩

/-- Every item of a run of bytes is a frame item, so counting frame items counts the items. -/
theorem receiveBytes_filter_isFrameItem (bytes : List Byte) (x : Block) :
    (receiveBytes prm bytes x).outputs.filter isFrameItem = (receiveBytes prm bytes x).outputs :=
  List.filter_eq_self.2 (receiveBytes_out bytes x)

end Framing

/-- Settles O43: the position and the number of items of a run are those of the table of R25. -/
theorem framingIgnoresContents : Obligations.FramingIgnoresContents := by
  rintro s s' t t' bytes hlink hpos ⟨⟩ ⟨⟩
  simp only [emitted_apply, receiveBytes_filter_isFrameItem]
  exact receiveBytes_framing bytes hlink hpos

/-! ### which instruction writes which register (R32) -/

/-- A commit that changes the window delivers a record (R165). -/
theorem commitPayload_win (prm : Params) (p : Payload) (x : Block)
    (hne : (commitPayload prm p x).block.win ≠ x.win) :
    ∃ r, Output.telem r ∈ (commitPayload prm p x).outputs := by
  rcases commitPayload_cases prm p x with ⟨-, -, h⟩ | ⟨-, h⟩ <;> rw [h] at hne ⊢
  · exact absurd rfl hne
  · exact ⟨_, List.mem_singleton_self _⟩

/-- A received byte that changes the window delivers a record. -/
theorem receiveByte_win (prm : Params) (b : Byte) (x : Block)
    (hne : (receiveByte prm b x).block.win ≠ x.win) :
    ∃ r, Output.telem r ∈ (receiveByte prm b x).outputs := by
  rcases receiveByte_cases prm b x with h | ⟨-, -, -, h⟩ | ⟨-, -, -, h⟩ | ⟨-, -, h⟩ | ⟨-, -, -, h⟩ |
    ⟨-, -, -, h⟩ <;> rw [h] at hne ⊢
  case inr.inr.inr.inr.inr => exact commitPayload_win _ _ _ hne
  all_goals exact absurd rfl hne

/-- A run of bytes that changes the window delivers a record: one of its bytes does. -/
theorem receiveBytes_win (prm : Params) (bytes : List Byte) (x : Block)
    (hne : (receiveBytes prm bytes x).block.win ≠ x.win) :
    ∃ r, Output.telem r ∈ (receiveBytes prm bytes x).outputs := by
  induction bytes generalizing x with
  | nil => exact absurd rfl hne
  | cons b bs ih =>
    simp only [receiveBytes, Effect.andThen_block, Effect.andThen_outputs, List.mem_append] at hne ⊢
    by_cases hrest : (receiveBytes prm bs (receiveByte prm b x).block).block.win =
        (receiveByte prm b x).block.win
    · obtain ⟨r, hr⟩ := receiveByte_win prm b x (by rwa [← hrest])
      exact ⟨r, .inl hr⟩
    · obtain ⟨r, hr⟩ := ih _ hrest
      exact ⟨r, .inr hr⟩

section Writers

variable {i : Instr} {s t : State}

/-- LINK is written by the fresh instances only. -/
theorem ExecutesTo.writer_of_link (h : ExecutesTo s i t) (hne : t.link ≠ s.link) :
    i = .connect ∨ i = .disconnect ∨ i = .reset := by
  cases h with
  | fresh _ _ hi => exact hi
  | commit => exact absurd (commitPayload_frame _ _ _).1 hne
  | receive => exact absurd (receiveBytes_link _ _) hne
  | _ => exact absurd rfl hne

/-- The resynchronizer is written by received bytes and by the fresh instances. -/
theorem ExecutesTo.writer_of_resync (h : ExecutesTo s i t) (hne : t.rs ≠ s.rs ∨ t.acc ≠ s.acc) :
    (mayCommit i = true ∧ ∀ p, i ≠ .commit p) ∨ i = .connect ∨ i = .disconnect ∨ i = .reset := by
  cases h with
  | fresh _ _ hi => exact .inr hi
  | receive hcommit hother => exact .inl ⟨hcommit, hother⟩
  | commit =>
    obtain ⟨-, hrs, hacc⟩ := commitPayload_frame s.params _ s.toBlock
    exact absurd hne (not_or.2 ⟨not_not.2 hrs, not_not.2 hacc⟩)
  | _ => exact absurd hne (not_or.2 ⟨not_not.2 rfl, not_not.2 rfl⟩)

/-- The window is written by committed frames, WAPPEND, WCLEAR and the fresh instances. -/
theorem ExecutesTo.writer_of_win (h : ExecutesTo s i t) (hne : t.win ≠ s.win) :
    (∃ r, Output.telem r ∈ emitted s t) ∨ (∃ x, i = .wappend x) ∨ i = .wclear ∨
      i = .connect ∨ i = .disconnect ∨ i = .reset := by
  cases h with
  | fresh _ _ hi => exact .inr (.inr (.inr hi))
  | clear => exact .inr (.inr (.inl rfl))
  | append v => exact .inr (.inl ⟨v, rfl⟩)
  | commit => rw [emitted_apply]; exact .inl (commitPayload_win _ _ _ hne)
  | receive => rw [emitted_apply]; exact .inl (receiveBytes_win _ _ _ hne)
  | _ => exact absurd rfl hne

/-- The codec value is written by the codec's own rows only (log entry 2). -/
theorem ExecutesTo.writer_of_codec (h : ExecutesTo s i t) (hne : t.codec ≠ s.codec) :
    isEvent i = false ∧ mayCommit i = false := by
  cases h with
  | codec _ hevent hcommit => exact ⟨hevent, hcommit⟩
  | _ => exact absurd rfl hne

/-- Parameters, queue and test slot are written by no instruction (R31; log entries 3, 15). -/
theorem ExecutesTo.readOnly (h : ExecutesTo s i t) :
    t.params = s.params ∧ t.pending = s.pending ∧ t.slot = s.slot := by
  cases h <;> exact ⟨rfl, rfl, rfl⟩

end Writers

/-- Settles O48, one register group after the other, over the cases of exec. -/
theorem registersChangeOnlyByTheirWriters : Obligations.RegistersChangeOnlyByTheirWriters := by
  intro i s t hexec
  have h := executesTo_of_exec hexec
  exact ⟨h.writer_of_link, h.writer_of_resync, h.writer_of_win, h.writer_of_codec⟩

/-- Settles O46, over the cases of exec. -/
theorem parametersAreReadOnly : Obligations.ParametersAreReadOnly :=
  fun _ _ _ hexec => (executesTo_of_exec hexec).readOnly

/-! ### the values after reset (R38) -/

/-- A machine whose block is a fresh instance holds the reset values. -/
theorem holdsResetValues_of_fresh {s : State} {l : Link} (h : s.toBlock = freshInstance l) :
    s.HoldsResetValues l := by
  simp [State.HoldsResetValues, Block.cnt, Block.accRead, Block.sValid, Block.sMode,
    Block.sRunMode, Block.sStage, Block.sFan, Block.sLamp, Block.winCount, Block.winRead, h,
    freshInstance]

/-- Settles O1: reset, RESET, CONNECT and DISCONNECT each leave a fresh instance. -/
theorem resetStateHoldsSpecValues : Obligations.ResetStateHoldsSpecValues :=
  ⟨holdsResetValues_of_fresh rfl, fun _ =>
    ⟨⟨_, rfl, holdsResetValues_of_fresh rfl⟩, ⟨_, rfl, holdsResetValues_of_fresh rfl⟩,
      ⟨_, rfl, holdsResetValues_of_fresh rfl⟩⟩⟩

/-! ### what exec reads (R20, R36, R11) -/

/-- Executing reads the block and the parameters, and its next state is an effect applied or a codec
value set: two machines with the same block and parameters have outcomes that agree under every pair of
views under which those two operations agree. -/
theorem mapNext_exec_congr (i : Instr) {s u : State} {f g : State → State}
    (hblock : u.toBlock = s.toBlock) (hparams : u.params = s.params)
    (happly : ∀ e, f (u.apply e) = g (s.apply e))
    (hcodec : ∀ v, f (u.setCodec v) = g (s.setCodec v)) :
    mapNext f (exec i u) = mapNext g (exec i s) := by
  have hnext (e : Effect) : mapNext f (.next (u.apply e)) = mapNext g (.next (s.apply e)) :=
    congrArg Host.Outcome.next (happly e)
  have hret (v : CodecResult) :
      mapNext f (.next (u.setCodec v)) = mapNext g (.next (s.setCodec v)) :=
    congrArg Host.Outcome.next (hcodec v)
  cases i with
  | sendMode mode runMode =>
    simp only [exec, execSendMode, sendMode, hblock]
    split
    · exact hnext _
    · rfl
  | setMode mode runMode =>
    simp only [exec, execSetMode]
    split
    · exact hret _
    · rfl
  | setProfile | encTelemetry => exact hret _
  | decodeTelemetry => simp only [exec, execDecodeTelemetry, hparams]; exact hret _
  | reset | connect | disconnect => exact hnext _
  | rxb | rx | rxFrame | telemetry | commit | wappend | supdate | sendProf | wclear | wsnap | scur =>
    simp only [exec, execRxb, execRx, execRxFrame, execTelemetry, execCommit, execWAppend,
      execSUpdate, execSendProf, execWClear, execWSnap, execSCur, hblock, hparams]
    exact hnext _

/-- Looking at the next state as it is changes no outcome. -/
theorem mapNext_id (o : Host.Outcome State Fault Refusal) : mapNext id o = o := by cases o <;> rfl

/-- Settles O47: another trace, queue and slot, and another codec value, leave block and parameters as
they are and pass through both operations that exec ends with. -/
theorem outcomeIgnoresModelFields : Obligations.OutcomeIgnoresModelFields := by
  intro i s o q w
  constructor
  · rw [← mapNext_id (exec i { s with out := o ++ s.out, pending := q, slot := w })]
    exact mapNext_exec_congr i rfl rfl (fun e => s.apply_of_trace e o q w) (fun _ => rfl)
  · exact fun c => mapNext_exec_congr i rfl rfl (fun e => by rw [s.apply_of_codec e c])
      (fun _ => rfl)

/-! ### several instances (R37, R201) -/

/-- A completed step of an instance that exists replaces it by its own next state. -/
theorem stepInstance_eq_next {k : Nat} {insts next : List State} {s : State}
    (hk : insts[k]? = some s) (h : stepInstance k insts = .next next) :
    ∃ t, step s = .next t ∧ next = insts.set k t := by
  simp only [stepInstance, hk] at h
  split at h
  · exact ⟨_, ‹_›, (Host.Outcome.next.inj h).symm⟩
  · cases h
  · cases h

/-- With no instance of that number nothing happens. -/
theorem stepInstance_none {k : Nat} {insts : List State} (hk : insts[k]? = none) :
    stepInstance k insts = .next insts := by
  simp only [stepInstance, hk]

/-- Settles O56: only the entry at `k` is set, and to the next state of that instance. -/
theorem instancesShareNothing : Obligations.InstancesShareNothing := by
  intro k insts next h
  cases hk : insts[k]? with
  | none =>
    rw [stepInstance_none hk] at h
    cases h
    exact ⟨rfl, fun _ _ => rfl, nofun⟩
  | some s =>
    obtain ⟨t, hstep, rfl⟩ := stepInstance_eq_next hk h
    have hlt : k < insts.length := (List.getElem?_eq_some_iff.1 hk).1
    refine ⟨List.length_set, fun l hl => List.getElem?_set_ne hl.symm, ?_⟩
    rintro _ ⟨⟩
    exact ⟨t, hstep, List.getElem?_set_self hlt⟩

end Sys2Proof.Proofs
end

section
/-! Proofs about the byte streams: who writes to TX, how sends and received bytes interleave, and a
delivered chunk as one step for each of its bytes. -/

namespace Sys2Proof.Proofs

open Sys2Proof.Machine

/-! ### the answer of a send (R170, R171, R175, R186) -/

/-- The items with which a send of `bytes` is answered. They depend on LINK alone. -/
def sendAnswer (bytes : List Byte) : Link → List Output
  | .down => [.resp .sendErrorNotConnected]
  | .up => bytes.map .tx ++ [.resp .ok]

/-- A send leaves the block as it is and emits its answer. -/
theorem sendFrame_eq_answer (bytes : List Byte) (x : Block) :
    sendFrame bytes x = ⟨x, sendAnswer bytes x.link⟩ := by
  rcases sendFrame_cases bytes x with ⟨hlink, h⟩ | ⟨hlink, h⟩ <;> rw [h, hlink] <;> rfl

/-- A TX byte is in the answer of a send only with LINK Up. -/
theorem link_of_tx_mem_sendAnswer {bytes : List Byte} {l : Link} {b : Byte}
    (h : Output.tx b ∈ sendAnswer bytes l) : l = .up := by
  cases l with
  | up => rfl
  | down => simp [sendAnswer] at h

/-- No item of a send's answer is a frame item. -/
theorem filter_isFrameItem_sendAnswer (bytes : List Byte) (l : Link) :
    (sendAnswer bytes l).filter isFrameItem = [] := by
  cases l <;> simp [sendAnswer, isFrameItem]

/-- All that a send can be: refused for its operands in every state, or in every state the send of the
same bytes. -/
theorem exec_send_cases {i : Instr} (hsend : isSend i = true) :
    (∀ s, exec i s = .refused .operandDomain) ∨
      ∃ bytes, ∀ s, exec i s = .next (s.apply ⟨s.toBlock, sendAnswer bytes s.link⟩) := by
  cases i with
  | sendMode mode runMode =>
    cases hd : modeOperandsDefined mode runMode with
    | false => exact .inl fun s => by simp [exec, execSendMode, sendMode, hd, State.applyOutcome]
    | true =>
      exact .inr ⟨encodeSetMode mode runMode, fun s => by
        simp [exec, execSendMode, sendMode, hd, State.applyOutcome, sendFrame_eq_answer]⟩
  | sendProf a b c d =>
    exact .inr ⟨encodeSetProfile a b c d, fun s => by
      simp [exec, execSendProf, sendProf, sendFrame_eq_answer]⟩
  | _ => cases hsend

/-! ### who writes to TX (R50, R52) -/

/-- Items that are all frame items hold no TX byte. -/
theorem tx_notMem_of_isFrameItem {items : List Output} (h : ∀ o ∈ items, isFrameItem o = true)
    (b : Byte) : Output.tx b ∉ items :=
  fun hmem => by cases h _ hmem

/-- A run of received bytes puts nothing on TX. -/
theorem tx_notMem_receiveBytes (prm : Params) (bytes : List Byte) (x : Block) (b : Byte) :
    Output.tx b ∉ (receiveBytes prm bytes x).outputs :=
  tx_notMem_of_isFrameItem (receiveBytes_out bytes x) b

/-- Setting the caller's codec value emits nothing. -/
@[simp] theorem emitted_setCodec (s : State) (v : CodecResult) : emitted s (s.setCodec v) = [] :=
  emitted_of_out (by simp)

/-- An instruction that is no send puts nothing on TX. -/
theorem tx_notMem_emitted_of_not_send {i : Instr} {s t : State} (hsend : isSend i = false)
    (h : exec i s = .next t) (b : Byte) : Output.tx b ∉ emitted s t := by
  cases i with
  | sendMode | sendProf => cases hsend
  | setMode mode runMode =>
    simp only [exec, execSetMode] at h
    split at h
    · cases h
      simp
    · cases h
  | setProfile | decodeTelemetry | encTelemetry => cases h; simp
  | reset | connect | disconnect =>
    cases h
    simp [resetBlock, connectBlock, disconnectBlock]
  | wclear | wsnap | scur =>
    cases h
    simp [clearWindow, showWindow, showSession]
  | supdate | wappend => cases h; simp
  | commit p =>
    cases h
    obtain ⟨o, ho, hout⟩ := commitPayload_out s.params p s.toBlock
    rw [emitted_apply, hout]
    exact tx_notMem_of_isFrameItem (by simpa using ho) b
  | rxb =>
    cases h
    rw [emitted_apply, ← receiveBytes_singleton]
    exact tx_notMem_receiveBytes _ _ _ b
  | rxFrame =>
    cases h
    rw [emitted_apply, ← receiveBytes_append]
    exact tx_notMem_receiveBytes _ _ _ b
  | rx | telemetry =>
    cases h
    rw [emitted_apply]
    exact tx_notMem_receiveBytes _ _ _ b

/-- Settles O11: what is no send is silent on TX, and a send is while Down. -/
theorem transmitsOnlyInSendsWhileUp : Obligations.TransmitsOnlyInSendsWhileUp := by
  intro i s t b h htx
  cases hsend : isSend i with
  | false => exact absurd htx (tx_notMem_emitted_of_not_send hsend h b)
  | true =>
    refine ⟨rfl, ?_⟩
    rcases exec_send_cases hsend with hrefused | ⟨bytes, hnext⟩
    · rw [hrefused] at h
      cases h
    · rw [hnext] at h
      cases h
      rw [emitted_apply] at htx
      exact link_of_tx_mem_sendAnswer htx

/-! ### a send and a received byte (R63, R158) -/

/-- The TX stream of two traces one after the other (R52). -/
theorem txStream_append (o o' : List Output) : txStream (o ++ o') = txStream o ++ txStream o' :=
  List.filterMap_append

/-- A received byte adds nothing to the TX stream. -/
theorem txStream_receiveByte (prm : Params) (b : Byte) (x : Block) :
    txStream (receiveByte prm b x).outputs = [] := by
  rcases receiveByte_out prm b x with h | ⟨o, ho, h⟩ <;> rw [h]
  · rfl
  · cases o with
    | tx | resp => cases ho
    | telem | decodeError => rfl

/-- RXB applies the block's step for the byte (R120). -/
theorem exec_rxb (b : Byte) (s : State) :
    exec (.rxb b) s = .next (s.apply (receiveByte s.params b s.toBlock)) := rfl

/-- A send, then a received byte: the byte's registers, the answer before the byte's items. -/
theorem execAll_send_rxb {i : Instr} {bytes : List Byte}
    (hnext : ∀ s, exec i s = .next (s.apply ⟨s.toBlock, sendAnswer bytes s.link⟩)) (b : Byte)
    (s : State) : execAll [i, .rxb b] s = .next (s.apply
      ⟨(receiveByte s.params b s.toBlock).block,
        sendAnswer bytes s.link ++ (receiveByte s.params b s.toBlock).outputs⟩) := by
  simp only [execAll, hnext, exec_rxb, State.apply, List.append_assoc]

/-- A received byte, then a send: the byte's registers, the byte's items before the answer, which is the
same since a received byte does not write LINK. -/
theorem execAll_rxb_send {i : Instr} {bytes : List Byte}
    (hnext : ∀ s, exec i s = .next (s.apply ⟨s.toBlock, sendAnswer bytes s.link⟩)) (b : Byte)
    (s : State) : execAll [.rxb b, i] s = .next (s.apply
      ⟨(receiveByte s.params b s.toBlock).block,
        (receiveByte s.params b s.toBlock).outputs ++ sendAnswer bytes s.link⟩) := by
  simp only [execAll, hnext, exec_rxb, State.apply, receiveByte_link, List.append_assoc]

/-- Settles O12: both orders end in the byte's registers, and the two traces differ in the order of the
send's answer, which has no frame item, and the byte's items, which have no TX byte. -/
theorem sendsCommuteWithReceivedBytes : Obligations.SendsCommuteWithReceivedBytes := by
  intro i b s t u hsend ht hu
  rcases exec_send_cases hsend with hrefused | ⟨bytes, hnext⟩
  · simp [execAll, hrefused] at ht
  · rw [execAll_send_rxb hnext] at ht
    rw [execAll_rxb_send hnext] at hu
    cases ht
    cases hu
    refine ⟨rfl, ?_, ?_⟩
    · simp only [State.apply_out, txStream_append, txStream_receiveByte, List.nil_append,
        List.append_nil]
    · simp only [emitted_apply, List.filter_append, filter_isFrameItem_sendAnswer,
        List.nil_append, List.append_nil]

/-! ### a delivered chunk, step by step (R51, R125) -/

/-- An empty chunk presents nothing. -/
@[simp] theorem feed_nil (s : State) : s.feed [] = s := by
  simp only [State.feed, List.map_nil, List.append_nil]

/-- Applying an effect of the block and delivering a chunk do not touch the same fields. -/
theorem apply_feed (s : State) (bytes : List Byte) (e : Effect) :
    (s.feed bytes).apply e = (s.apply e).feed bytes := rfl

section Chunk

variable {s : State}

/-- With nothing else presented, a step takes the chunk's first byte and leaves the rest presented. -/
theorem step_feed_cons (hslot : s.slot = none) (hpending : s.pending = []) (b : Byte)
    (bytes : List Byte) : step (s.feed (b :: bytes)) = exec (.rxb b) (s.feed bytes) := by
  have hqueue : (s.feed (b :: bytes)).pending = .rxByte b :: bytes.map .rxByte := by
    simp [hpending]
  have hrest : { s.feed (b :: bytes) with pending := bytes.map .rxByte } = s.feed bytes := by
    simp [State.feed, hpending]
  rw [step_event (s := s.feed (b :: bytes)) (e := .rxb b) hslot hqueue rfl, hrest]
  rfl

/-- One step for each byte of the chunk leads where the run of the bytes does. -/
theorem stepN_feed (bytes : List Byte) (hslot : s.slot = none) (hpending : s.pending = []) :
    stepN bytes.length (s.feed bytes) = exec (.rx bytes) s := by
  induction bytes generalizing s with
  | nil => simp [stepN, exec, execRx, receiveBytes]
  | cons b bs ih =>
    have hfirst : step (s.feed (b :: bs)) =
        .next ((s.apply (receiveByte s.params b s.toBlock)).feed bs) :=
      step_feed_cons hslot hpending b bs
    calc stepN (b :: bs).length (s.feed (b :: bs))
      _ = stepN bs.length ((s.apply (receiveByte s.params b s.toBlock)).feed bs) := by
        simp only [List.length_cons, stepN, hfirst]
      _ = exec (.rx bs) (s.apply (receiveByte s.params b s.toBlock)) := ih hslot hpending
      _ = exec (.rx (b :: bs)) s := by
        simp only [exec, execRx, receiveBytes, State.apply_andThen, State.apply_params,
          State.apply_toBlock]

end Chunk

/-- Settles O36, by the first step of a chunk and the induction over its bytes. -/
theorem chunkIsOneStepPerByte : Obligations.ChunkIsOneStepPerByte :=
  fun s => ⟨feed_nil s, fun hslot hpending b bytes =>
    ⟨step_feed_cons hslot hpending b bytes, stepN_feed bytes hslot hpending⟩⟩

end Sys2Proof.Proofs
end

section
/-! Proofs about the encodings: the command port's codes, the decoder as the inverse of the encoder, and
received chunks and frames as the runs of RXB that they stand for. -/

namespace Sys2Proof.Proofs

open Sys2Proof.Machine

/-! ### the command port (R84, R86) -/

section Command

variable {op : BitVec 4}

/-- Every code but the seven of the table is refused, whatever its argument (R84). -/
theorem decodeCommand_reserved (h : op.toNat = 0 ∨ 8 ≤ op.toNat) (arg : BitVec 64) :
    decodeCommand op arg = .error (.reservedCommand op) := by
  unfold decodeCommand
  split
  case h_8 => rfl
  all_goals omega

/-- The reserved codes, read off the code's bits. -/
theorem reserved_toNat (h : op = 0 ∨ 8#4 ≤ op) : op.toNat = 0 ∨ 8 ≤ op.toNat :=
  h.imp (congrArg BitVec.toNat) BitVec.le_def.1

/-- Settles O53: the defined codes are the arms of the decoder, every other code falls through them. -/
theorem commandPortCodes : Obligations.CommandPortCodes :=
  fun arg => ⟨rfl, rfl, rfl, rfl, rfl, rfl, rfl,
    fun _ hop => decodeCommand_reserved (reserved_toNat hop) arg⟩

/-- The operands that the encoder packs into SENDMODE's `cmd_arg` are read back (R86). -/
theorem decodePort_sendMode (mode runMode : Byte) :
    decodePort (.command 1 (0#48 ++ runMode ++ mode : BitVec 64)) =
      .ok (.sendMode mode runMode) := by
  obtain ⟨hdecode, -⟩ := commandPortCodes (0#48 ++ runMode ++ mode : BitVec 64)
  obtain ⟨hmode, hrunMode⟩ := sendMode_arg mode runMode
  rw [hdecode, hmode, hrunMode]

/-- The operands that the encoder packs into SENDPROF's `cmd_arg` are read back (R86). -/
theorem decodePort_sendProf (a b c d : U16) :
    decodePort (.command 2 (d ++ c ++ b ++ a : BitVec 64)) = .ok (.sendProf a b c d) := by
  obtain ⟨-, hdecode, -⟩ := commandPortCodes (d ++ c ++ b ++ a : BitVec 64)
  obtain ⟨ha, hb, hc, hd⟩ := sendProf_arg a b c d
  rw [hdecode, ha, hb, hc, hd]

end Command

/-! ### the wire frames (R71, R72, R73) -/

/-- A format T frame is decoded to its fields (R71). -/
theorem decodeFrame_frameT (mode runMode stage fan lamp : Byte) (t1 t2 : U32) :
    decodeFrame (frameT mode runMode stage fan lamp t1 t2) =
      .ok (.telemetry mode runMode stage fan lamp t1 t2) := by
  simp only [frameT, le32, List.cons_append, List.nil_append, decodeFrame, and_self, if_true,
    u32le_extract]

/-- A format M frame is decoded to its fields (R72). -/
theorem decodeFrame_frameM (mode runMode : Byte) :
    decodeFrame (frameM mode runMode) = .ok (.setMode mode runMode) := by
  simp only [frameM, decodeFrame, and_self, if_true]

/-- A format P frame is decoded to its fields (R73). -/
theorem decodeFrame_frameP (a b c d : U16) :
    decodeFrame (frameP a b c d) = .ok (.setProfile a b c d) := by
  simp only [frameP, le16, List.cons_append, List.nil_append, decodeFrame, and_self, if_true,
    u16le_extract]

/-! ### decoding an encoding (R89) -/

/-- An event's port bits decode to the event's row of the table. -/
theorem decode_port {x : Stimulus} {e : Event} (h : decodePort x = .ok e) :
    decode (.port x) = .ok e.instr := by
  simp only [decode, h]

/-- The decoder is a left inverse of the encoder. No operand has to be in its domain for that: R110 and
R175 bound what is executed, not what is encoded. -/
theorem decode_encode {i : Instr} {c : Code} (h : encode i = some c) : decode c = .ok i := by
  cases i with
  | telemetry => cases h; exact decodeFrame_frameT ..
  | setMode => cases h; exact decodeFrame_frameM ..
  | setProfile => cases h; exact decodeFrame_frameP ..
  | sendMode => cases h; exact decode_port (decodePort_sendMode ..)
  | sendProf => cases h; exact decode_port (decodePort_sendProf ..)
  | rxb | reset | wclear | wsnap | scur | connect | disconnect => cases h; rfl
  | decodeTelemetry | commit | supdate | wappend | encTelemetry | rx | rxFrame => cases h

/-- Exactly the rows to which R89 gives an encoding have one. -/
theorem encode_isSome (i : Instr) : (encode i).isSome = i.encodable := by cases i <;> rfl

/-- Settles O54: the rows with an encoding, and the decoder as a left inverse of the encoder. -/
theorem decodeOfEncode : Obligations.DecodeOfEncode :=
  fun i => ⟨encode_isSome i, fun _ _ henc => decode_encode henc⟩

/-- Settles O55: the words but the last are encodings of the instructions they decode to, and the last
is a reserved command. -/
theorem specWordsDecode : Obligations.SpecWordsDecode :=
  ⟨decode_encode (i := .setMode 1 1) rfl, decode_encode (i := .setProfile 90 150 30 245) rfl,
    decode_encode (i := .telemetry 0 1 2 1 0 1000 2000) rfl, decode_encode (i := .rxb 0xFA) rfl,
    decode_encode (i := .connect) rfl,
    by rw [decode, decodePort, decodeCommand_reserved (.inl rfl)]⟩

/-! ### chunks and frames as runs of RXB (R71, R88, R125) -/

/-- RX applies the block's run of the bytes. -/
theorem exec_rx (bytes : List Byte) (s : State) :
    exec (.rx bytes) s = .next (s.apply (receiveBytes s.params bytes s.toBlock)) := rfl

/-- One RXB for each byte, in order, is RX of the bytes (R88). -/
theorem execAll_map_rxb (bytes : List Byte) (s : State) :
    execAll (bytes.map .rxb) s = exec (.rx bytes) s := by
  induction bytes generalizing s with
  | nil => simp only [List.map_nil, execAll, exec_rx, receiveBytes, State.apply_silent_self]
  | cons b bs ih =>
    calc execAll ((b :: bs).map .rxb) s
      _ = execAll (bs.map .rxb) (s.apply (receiveByte s.params b s.toBlock)) := by
        simp only [List.map_cons, execAll, exec_rxb]
      _ = exec (.rx bs) (s.apply (receiveByte s.params b s.toBlock)) := ih _
      _ = exec (.rx (b :: bs)) s := by
        simp only [exec_rx, receiveBytes, State.apply_andThen, State.apply_params,
          State.apply_toBlock]

/-- RX of one chunk and then of another is RX of the two joined (R126). -/
theorem execAll_rx_rx (xs ys : List Byte) (s : State) :
    execAll [.rx xs, .rx ys] s = exec (.rx (xs ++ ys)) s := by
  simp only [execAll, exec_rx, receiveBytes_append, State.apply_andThen, State.apply_params,
    State.apply_toBlock]

/-- RXFRAME is RX of the marker and the 13 bytes of ENC_TELEMETRY (R88). -/
theorem exec_rxFrame (mode runMode stage fan lamp : Byte) (t1 t2 : U32) (s : State) :
    exec (.rxFrame mode runMode stage fan lamp t1 t2) s =
      exec (.rx ([marker1, marker2] ++ encodePayload mode runMode stage fan lamp t1 t2)) s := by
  rw [exec_rx, receiveBytes_append]
  rfl

/-- TELEMETRY is RX of the bytes of its format T frame (R71; log entry 10). -/
theorem exec_telemetry (mode runMode stage fan lamp : Byte) (t1 t2 : U32) (s : State) :
    exec (.telemetry mode runMode stage fan lamp t1 t2) s =
      exec (.rx (frameT mode runMode stage fan lamp t1 t2)) s := rfl

/-- Settles O35: both expansions are RX of the same bytes. -/
theorem chunksExpandToBytes : Obligations.ChunksExpandToBytes :=
  ⟨fun s bytes => ⟨_, exec_rx bytes s, (execAll_map_rxb bytes s).trans (exec_rx bytes s)⟩,
    fun s mode runMode stage fan lamp t1 t2 =>
      ⟨_, (exec_rxFrame mode runMode stage fan lamp t1 t2 s).trans (exec_rx _ s),
        (execAll_rx_rx [marker1, marker2] _ s).trans (exec_rx _ s)⟩⟩

/-- Settles O37: the 15 bytes of format T, one RXB each, are RX of them. -/
theorem telemetryFrameArrivesAsBytes : Obligations.TelemetryFrameArrivesAsBytes :=
  fun s mode runMode stage fan lamp t1 t2 =>
    ⟨_, (exec_telemetry mode runMode stage fan lamp t1 t2 s).trans (exec_rx _ s),
      (execAll_map_rxb (frameT mode runMode stage fan lamp t1 t2) s).trans (exec_rx _ s)⟩

end Sys2Proof.Proofs
end

section
/-! Proofs about the Frame Codec: the enum names and the `err` bits, the fields of a decoded payload and
its round trip, the sample word, and the bytes that the encoder rows return. -/

namespace Sys2Proof.Proofs

open Sys2Proof.Machine

/-! ### the sample word (R108) -/

/-- The sum of two 32-bit temperatures fits the 33 bits of the sample word. -/
theorem sampleOf_toNat (r : Record) : (sampleOf r).toNat = r.temp1.toNat + r.temp2.toNat := by
  have h1 := r.temp1.isLt
  have h2 := r.temp2.isLt
  simp only [sampleOf, BitVec.toNat_add, BitVec.toNat_setWidth]
  omega

/-- Hundredths summed are two-hundredths of the average: the sample word denotes it exactly. -/
theorem sampleC_sampleOf (r : Record) :
    sampleC (sampleOf r) = (tempC r.temp1 + tempC r.temp2) / 2 := by
  simp only [sampleC, tempC, sampleOf_toNat, Nat.cast_add]
  ring

/-- Settles O27, from the exact sum. -/
theorem sampleIsExactAverage : Obligations.SampleIsExactAverage :=
  fun r => ⟨sampleOf_toNat r, sampleOf_le r, sampleC_sampleOf r⟩

/-! ### defined enum bytes, their names and their flags (R76, R77, R78, R102) -/

section Enum

variable (mode runMode stage v : Byte)

/-- A byte is not among the values up to `n` exactly when it is above `n`. -/
theorem not_decide_le (n : Byte) : (!decide (v ≤ n)) = decide (n.toNat < v.toNat) := by
  simp only [← decide_not, BitVec.not_le, BitVec.lt_def]

/-- The order of the flags in `err[2:0]`: mode, runMode, stage (R100, R101). -/
theorem errFlags_getLsbD :
    (errFlags mode runMode stage).getLsbD 0 = !modeDefined mode ∧
    (errFlags mode runMode stage).getLsbD 1 = !runModeDefined runMode ∧
    (errFlags mode runMode stage).getLsbD 2 = !stageDefined stage := by
  unfold errFlags
  cases modeDefined mode <;> cases runModeDefined runMode <;> cases stageDefined stage <;> decide

/-- A flag is set exactly when its byte is above the last value that R76, R77 and R78 name. -/
theorem errFlags_getLsbD_eq_decide :
    (errFlags mode runMode stage).getLsbD 0 = decide (3 < mode.toNat) ∧
    (errFlags mode runMode stage).getLsbD 1 = decide (2 < runMode.toNat) ∧
    (errFlags mode runMode stage).getLsbD 2 = decide (5 < stage.toNat) := by
  obtain ⟨hmode, hrunMode, hstage⟩ := errFlags_getLsbD mode runMode stage
  exact ⟨hmode.trans (not_decide_le mode 3), hrunMode.trans (not_decide_le runMode 2),
    hstage.trans (not_decide_le stage 5)⟩

/-- Exactly the mode bytes above 3 are `Unknown`. -/
theorem modeName_eq_unknown : modeName v = .unknown v ↔ 3 < v.toNat := by
  unfold modeName
  split_ifs with h0 h1 h2 h3
  case neg => simp only [true_iff]; bv_omega
  all_goals subst v; decide

/-- Exactly the runMode bytes above 2 are `Unknown`. -/
theorem runModeName_eq_unknown : runModeName v = .unknown v ↔ 2 < v.toNat := by
  unfold runModeName
  split_ifs with h0 h1 h2
  case neg => simp only [true_iff]; bv_omega
  all_goals subst v; decide

/-- Exactly the stage bytes above 5 are `Unknown`. -/
theorem stageName_eq_unknown : stageName v = .unknown v ↔ 5 < v.toNat := by
  unfold stageName
  split_ifs with h0 h1 h2 h3 h4 h5
  case neg => simp only [true_iff]; bv_omega
  all_goals subst v; decide

end Enum

/-- Settles O20: a name is `Unknown` from the first undefined value up, and that is what the byte's flag
says. -/
theorem enumNamesFollowWireValues : Obligations.EnumNamesFollowWireValues := by
  refine ⟨⟨rfl, rfl, rfl, rfl⟩, ⟨rfl, rfl, rfl⟩, ⟨rfl, rfl, rfl, rfl, rfl, rfl⟩,
    fun v h => (modeName_eq_unknown v).2 (BitVec.le_def.1 h),
    fun v h => (runModeName_eq_unknown v).2 (BitVec.le_def.1 h),
    fun v h => (stageName_eq_unknown v).2 (BitVec.le_def.1 h), fun rule p => ?_⟩
  intro r
  obtain ⟨hmode, hrunMode, hstage⟩ := errFlags_getLsbD_eq_decide r.mode r.runMode r.stage
  rw [modeName_eq_unknown, runModeName_eq_unknown, stageName_eq_unknown,
    show r.err = errFlags r.mode r.runMode r.stage from decodePayload_err rule p,
    hmode, hrunMode, hstage]
  simp only [decide_eq_true_eq, and_self]

/-! ### the fan and lamp bytes (R103) -/

section BoolBytes

variable (rule : BoolRule) (v : Byte)

/-- Every byte but 0 is read as true. -/
theorem boolOf_eq_true : boolOf rule v = true ↔ v ≠ 0 := by
  cases rule
  exact bne_iff_ne

/-- A byte that encodes a bool is read as that bool. -/
theorem bne_zero_eq_decide {v : Byte} (h : v = 0 ∨ v = 1) : (v != 0) = decide (v = 1) := by
  rcases h with rfl | rfl <;> rfl

/-- A bool byte of 2 or more is read as true (D6). -/
theorem boolOf_of_two_le {v : Byte} (h : 2#8 ≤ v) : boolOf rule v = true :=
  (boolOf_eq_true rule v).2 (by bv_omega)

/-- A bool byte comes back from its reading exactly when it is 0 or 1. -/
theorem encode_boolOf : (if boolOf rule v then 1 else 0) = v ↔ v ≤ 1#8 := by
  simp only [boolOf_eq_true]
  split_ifs <;> bv_omega

end BoolBytes

/-! ### decoding and encoding a payload (R101, R112, R113) -/

/-- The 13 bytes that the decoded enum bytes and temperatures give back, whatever stands for fan and
lamp. -/
theorem encodePayload_decodePayload (rule : BoolRule) (p : Payload) (fan lamp : Byte) :
    encodePayload (decodePayload rule p).mode (decodePayload rule p).runMode
      (decodePayload rule p).stage fan lamp (decodePayload rule p).temp1
      (decodePayload rule p).temp2 =
    [p[0], p[1], p[2], fan, lamp, p[5], p[6], p[7], p[8], p[9], p[10], p[11], p[12]] := by
  simp only [encodePayload, decodePayload, memRead1, memRead4, le32_u32le, List.cons_append,
    List.nil_append]

/-- Those are the payload's bytes exactly when the fan and lamp bytes are the payload's. -/
theorem encodePayload_decodePayload_eq_iff (rule : BoolRule) (p : Payload) (fan lamp : Byte) :
    encodePayload (decodePayload rule p).mode (decodePayload rule p).runMode
      (decodePayload rule p).stage fan lamp (decodePayload rule p).temp1
      (decodePayload rule p).temp2 = p.toList ↔ fan = p[3] ∧ lamp = p[4] := by
  simp only [encodePayload_decodePayload, payload_toList, List.cons.injEq, true_and, and_true]

/-- Settles O26: both directions come down to the fan and lamp bytes, each of which comes back exactly
when it is 0 or 1. -/
theorem payloadRoundTrip : Obligations.PayloadRoundTrip := by
  constructor
  · intro rule mode runMode stage fan lamp t1 t2 hfan hlamp
    constructor
    · rw [decodePayload_encodePayload, bne_zero_eq_decide hfan, bne_zero_eq_decide hlamp]
    · intro hmode hrunMode hstage
      exact (errFlags_eq_zero ..).2
        ⟨decide_eq_true hmode, decide_eq_true hrunMode, decide_eq_true hstage⟩
  · intro rule p r bytes
    have hfan : r.fanOn = boolOf rule p[3] := rfl
    have hlamp : r.lampOn = boolOf rule p[4] := rfl
    refine ⟨?_, fun h => ?_, fun h => ?_⟩
    · rw [encodePayload_decodePayload_eq_iff, hfan, hlamp, encode_boolOf, encode_boolOf]
    · have htrue : r.fanOn = true := hfan.trans (boolOf_of_two_le rule h)
      exact ⟨htrue, by simp only [bytes, htrue]; rfl⟩
    · have htrue : r.lampOn = true := hlamp.trans (boolOf_of_two_le rule h)
      exact ⟨htrue, by simp only [bytes, htrue]; rfl⟩

/-! ### the codec rows as instructions (R109; log entries 2 and 11) -/

/-- DECODE_TELEMETRY returns the decoded record. -/
theorem exec_decodeTelemetry (p : Payload) (s : State) :
    exec (.decodeTelemetry p) s =
      .next (s.setCodec (.record (decodePayload s.params.boolRule p))) := rfl

/-- ENC_TELEMETRY returns the 13 bytes. -/
theorem exec_encTelemetry (mode runMode stage fan lamp : Byte) (t1 t2 : U32) (s : State) :
    exec (.encTelemetry mode runMode stage fan lamp t1 t2) s =
      .next (s.setCodec (.bytes (encodePayload mode runMode stage fan lamp t1 t2))) := rfl

/-- SETPROFILE returns the bytes of its format P frame. -/
theorem exec_setProfile (a b c d : U16) (s : State) :
    exec (.setProfile a b c d) s = .next (s.setCodec (.bytes (frameP a b c d))) := rfl

/-- SETMODE returns the bytes of its format M frame on its domain, and is refused elsewhere. -/
theorem exec_setMode (mode runMode : Byte) (s : State) :
    exec (.setMode mode runMode) s =
      if modeOperandsDefined mode runMode then .next (s.setCodec (.bytes (frameM mode runMode)))
      else .refused .operandDomain := rfl

/-- The operand domain of R110 and R175. -/
theorem modeOperandsDefined_iff (mode runMode : Byte) :
    modeOperandsDefined mode runMode = true ↔ mode ≤ 3#8 ∧ runMode ≤ 2#8 := by
  simp only [modeOperandsDefined, modeDefined, runModeDefined, Bool.and_eq_true, decide_eq_true_eq]

/-- Settles O22: the record is read off the bytes at the offsets of R101; the sums are those of R10 and
the flags those of R102. -/
theorem decodeTelemetryReadsFields : Obligations.DecodeTelemetryReadsFields := fun s p =>
  ⟨decodePayload s.params.boolRule p, exec_decodeTelemetry p s, rfl, rfl, rfl,
    boolOf_eq_true s.params.boolRule p[3], boolOf_eq_true s.params.boolRule p[4],
    u32le_toNat .., u32le_toNat .., errFlags_getLsbD_eq_decide ..⟩

/-- Settles O23: the list is `encodePayload` written out. -/
theorem encTelemetryLaysOutFields : Obligations.EncTelemetryLaysOutFields :=
  fun s mode runMode stage fan lamp t1 t2 => exec_encTelemetry mode runMode stage fan lamp t1 t2 s

/-- Settles O24, on both sides of the operand domain. -/
theorem setModeFrameBytes : Obligations.SetModeFrameBytes := by
  intro s m r
  rw [exec_setMode]
  constructor
  · intro hm hr
    rw [if_pos ((modeOperandsDefined_iff m r).2 ⟨hm, hr⟩)]
    rfl
  · intro hout
    have hundef : ¬ modeOperandsDefined m r = true := by
      rw [modeOperandsDefined_iff]
      bv_omega
    rw [if_neg hundef]

/-- Settles O25: the list is `frameP` written out. -/
theorem setProfileFrameBytes : Obligations.SetProfileFrameBytes :=
  fun s a b c d => exec_setProfile a b c d s

end Sys2Proof.Proofs
end

section
/-! Proofs about the Stream Resynchronizer: the table of R130, the cutting into chunks, the bounded lock,
frames among noise, and how many frames a chunk can complete. -/

namespace Sys2Proof.Proofs

open Sys2Proof.Machine

/-! ### the transition table (R120 to R124, R130) -/

/-- A received byte that emits nothing writes the block alone. -/
theorem exec_rxb_of_no_output {s : State} {b : Byte} {y : Block}
    (h : receiveByte s.params b s.toBlock = ⟨y, []⟩) :
    exec (.rxb b) s = .next { s with toBlock := y } := by
  rw [exec_rxb, h]
  exact congrArg _ (s.apply_silent y)

/-- The byte that fills the frame is the commit of its 13 bytes, with the resynchronizer already reset
(R124). -/
theorem exec_rxb_complete {s : State} {b : Byte} {p : Payload} (hlink : s.link = .up)
    (hrs : s.rs = .accumulatingFrame) (hcnt : s.cnt = 12) (hp : p.toList = s.acc ++ [b]) :
    exec (.rxb b) s = exec (.commit p) { s with rs := .seekingMarker1, acc := [] } := by
  have hfull : 11 < s.acc.length := by
    rw [show s.acc.length = 12 from hcnt]
    decide
  rw [exec_rxb, receiveByte_complete hlink hrs hfull, ← hp, payloadOf_toList]
  rfl

/-- COMMIT writes neither RS nor ACC. -/
theorem exec_commit_resync (p : Payload) (s : State) :
    ∃ t, exec (.commit p) s = .next t ∧ t.rs = s.rs ∧ t.acc = s.acc :=
  have ⟨_, hrs, hacc⟩ := commitPayload_frame s.params p s.toBlock
  ⟨_, rfl, hrs, hacc⟩

/-- Settles O34, row by row: the byte's effect in the row's phase, with the row's condition on the byte or
on CNT deciding its branches. -/
theorem rxbFollowsTransitionTable : Obligations.RxbFollowsTransitionTable := by
  intro s b
  refine ⟨fun hdown => exec_rxb_of_no_output (receiveByte_down hdown b),
    fun hup => ⟨?_, ?_, ?_, ?_, ?_, ?_, ?_⟩⟩
  · intro hrs (hb : b = marker1)
    exact exec_rxb_of_no_output (by rw [receiveByte_seek1 hup hrs, if_pos hb])
  · intro hrs (hb : b ≠ marker1)
    exact exec_rxb_of_no_output (by rw [receiveByte_seek1 hup hrs, if_neg hb])
  · intro hrs (hb : b = marker2)
    exact exec_rxb_of_no_output (by rw [receiveByte_seek2 hup hrs, if_pos hb])
  · intro hrs (hb : b = marker1)
    have hb2 : b ≠ marker2 := by
      rw [hb]
      decide
    exact exec_rxb_of_no_output (by rw [receiveByte_seek2 hup hrs, if_neg hb2, if_pos hb])
  · intro hrs (hb2 : b ≠ marker2) (hb1 : b ≠ marker1)
    exact exec_rxb_of_no_output (by rw [receiveByte_seek2 hup hrs, if_neg hb2, if_neg hb1])
  · intro hrs hroom
    exact exec_rxb_of_no_output (receiveByte_store hup hrs hroom b)
  · intro hrs hcnt p hp
    obtain ⟨t, ht, htrs, htacc⟩ :=
      exec_commit_resync p { s with rs := .seekingMarker1, acc := [] }
    exact ⟨t, (exec_rxb_complete hup hrs hcnt hp).trans ht, htrs, htacc, ht⟩

/-! ### chunks (R125, R131) -/

/-- Settles O39, by induction over the chunks: the first chunk and the rest joined are two chunks. -/
theorem chunkingInvariance : Obligations.ChunkingInvariance := by
  intro s chunks
  induction chunks generalizing s with
  | nil => exact execAll_map_rxb [] s
  | cons c cs ih =>
    calc execAll ((c :: cs).map .rx) s
      _ = execAll (cs.map .rx) (s.apply (receiveBytes s.params c s.toBlock)) := rfl
      _ = exec (.rx cs.flatten) (s.apply (receiveBytes s.params c s.toBlock)) := ih _
      _ = execAll [.rx c, .rx cs.flatten] s := rfl
      _ = exec (.rx (c :: cs).flatten) s := execAll_rx_rx c cs.flatten s

/-! ### bounded lock (R132) -/

/-- Settles O40: the 13 - CNT bytes fill the frame, and the commit keeps the reset resynchronizer; from a
seeking phase the marker opens a frame and the 13 bytes fill it. -/
theorem boundedLock : Obligations.BoundedLock := by
  constructor
  · intro s bytes hlink hrs (hcnt : s.acc.length ≤ 12) (hlen : bytes.length = 13 - s.acc.length)
    refine ⟨by omega, _, exec_rx bytes s, ?_⟩
    rw [receiveBytes_complete bytes hlink hrs hcnt (by omega)]
    exact Prod.mk.inj (commitPayload_position ..).1
  · intro s p hlink hseek
    refine ⟨_, exec_rx _ s, ?_⟩
    rw [show 0xFA :: 0xAF :: p.toList = [marker1, marker2] ++ p.toList from rfl,
      receiveBytes_frame p hlink hseek]
    rfl

/-! ### noise (R133) -/

/-- The bytes a seeking phase remembers: SeekingMarker2 is reached by an `FA` and holds it (R21, R122). -/
def remembered : ResyncPhase → List Byte
  | .seekingMarker1 => []
  | .seekingMarker2 => [marker1]
  | .accumulatingFrame => []

/-- No marker pair lies in a later part of noise. -/
theorem noMarker_of_append {xs ys : List Byte} (h : NoMarker (xs ++ ys)) : NoMarker ys :=
  fun hpair => h (hpair.trans (List.suffix_append xs ys).isInfix)

section Noise

variable {prm : Params} {x : Block}

/-- A byte of noise moves between the seeking phases, and what the new phase remembers makes no marker
pair with the noise to come. -/
theorem receiveByte_noise {b : Byte} {bytes : List Byte} (hlink : x.link = .up)
    (hseek : x.rs ≠ .accumulatingFrame) (hnoise : NoMarker (remembered x.rs ++ b :: bytes)) :
    ∃ phase, phase ≠ .accumulatingFrame ∧ NoMarker (remembered phase ++ bytes) ∧
      receiveByte prm b x = ⟨{ x with rs := phase }, []⟩ := by
  have hnext : NoMarker (b :: bytes) := noMarker_of_append hnoise
  have hrest : NoMarker bytes := noMarker_of_append (xs := [b]) hnext
  obtain hrs | hrs : x.rs = .seekingMarker1 ∨ x.rs = .seekingMarker2 := by
    simpa [hseek] using ResyncPhase.cases_three x.rs
  · rw [receiveByte_seek1 hlink hrs]
    by_cases hb : b = marker1
    · subst hb
      exact ⟨.seekingMarker2, by decide, hnext, by rw [if_pos rfl]⟩
    · exact ⟨.seekingMarker1, by decide, hrest, by rw [if_neg hb, ← hrs]⟩
  · rw [receiveByte_seek2 hlink hrs]
    have hb2 : b ≠ marker2 := by
      rintro rfl
      rw [hrs] at hnoise
      exact hnoise (List.prefix_append [marker1, marker2] bytes).isInfix
    rw [if_neg hb2]
    by_cases hb : b = marker1
    · subst hb
      exact ⟨.seekingMarker2, by decide, hnext, by rw [if_pos rfl, ← hrs]⟩
    · exact ⟨.seekingMarker1, by decide, hrest, by rw [if_neg hb]⟩

/-- Noise emits nothing and leaves the automaton seeking. -/
theorem receiveBytes_noise {bytes : List Byte} (hlink : x.link = .up)
    (hseek : x.rs ≠ .accumulatingFrame) (hnoise : NoMarker (remembered x.rs ++ bytes)) :
    ∃ phase, phase ≠ .accumulatingFrame ∧
      receiveBytes prm bytes x = ⟨{ x with rs := phase }, []⟩ := by
  induction bytes generalizing x with
  | nil => exact ⟨x.rs, hseek, rfl⟩
  | cons b bs ih =>
    obtain ⟨phase, hphase, hrest, hfirst⟩ := receiveByte_noise (prm := prm) hlink hseek hnoise
    rw [receiveBytes_cons_of_no_output hfirst]
    exact ih (x := { x with rs := phase }) hlink hphase hrest

/-- SeekingMarker1 remembers nothing: the noise alone has to be without a marker pair. -/
theorem receiveBytes_noise_of_seek1 {bytes : List Byte} (hlink : x.link = .up)
    (hrs : x.rs = .seekingMarker1) (hnoise : NoMarker bytes) :
    ∃ phase, phase ≠ .accumulatingFrame ∧
      receiveBytes prm bytes x = ⟨{ x with rs := phase }, []⟩ :=
  receiveBytes_noise hlink (by simp [hrs]) (by rwa [hrs])

end Noise

/-! ### frames among noise (R133) -/

/-- The commits of several payloads, in order (R165). -/
def commitPayloads (prm : Params) : List Payload → Block → Effect
  | [], x => x.silent
  | p :: ps, x => (commitPayload prm p x).andThen (commitPayloads prm ps)

/-- One COMMIT for each payload, in order, applies the run of commits. -/
theorem execAll_map_commit (ps : List Payload) (s : State) :
    execAll (ps.map .commit) s = .next (s.apply (commitPayloads s.params ps s.toBlock)) := by
  induction ps generalizing s with
  | nil => simp only [List.map_nil, execAll, commitPayloads, State.apply_silent_self]
  | cons p ps ih =>
    calc execAll ((p :: ps).map .commit) s
      _ = execAll (ps.map .commit) (s.apply (commitPayload s.params p s.toBlock)) := rfl
      _ = .next ((s.apply (commitPayload s.params p s.toBlock)).apply
            (commitPayloads s.params ps (commitPayload s.params p s.toBlock).block)) := ih _
      _ = .next (s.apply (commitPayloads s.params (p :: ps) s.toBlock)) := by
        rw [commitPayloads, State.apply_andThen]

/-- A run of commits emits one frame item for each payload. -/
theorem commitPayloads_filter_isFrameItem (prm : Params) (ps : List Payload) (x : Block) :
    ((commitPayloads prm ps x).outputs.filter isFrameItem).length = ps.length := by
  induction ps generalizing x with
  | nil => rfl
  | cons p ps ih =>
    obtain ⟨o, ho, hout⟩ := commitPayload_out prm p x
    simp [commitPayloads, hout, ho, ih]

/-- A stream that has a frame is its noise, the frame, and the stream that begins after it. -/
theorem frameStream_cons (n0 : List Byte) (f : Payload × List Byte)
    (frames : List (Payload × List Byte)) : frameStream n0 (f :: frames) =
      n0 ++ (([marker1, marker2] ++ f.1.toList) ++ frameStream f.2 frames) := by
  simp [frameStream]

/-- A stream of frames and noise is the commits of the frames' payloads, but for the phase in which the
search for the next marker stands. -/
theorem receiveBytes_frameStream {prm : Params} {x : Block} {n0 : List Byte}
    {frames : List (Payload × List Byte)} (hlink : x.link = .up) (hrs : x.rs = .seekingMarker1)
    (hacc : x.acc = []) (hn0 : NoMarker n0) (hnoise : ∀ f ∈ frames, NoMarker f.2) :
    ∃ phase, phase ≠ .accumulatingFrame ∧ receiveBytes prm (frameStream n0 frames) x =
      ⟨{ (commitPayloads prm (frames.map Prod.fst) x).block with rs := phase },
        (commitPayloads prm (frames.map Prod.fst) x).outputs⟩ := by
  induction frames generalizing x n0 with
  | nil =>
    obtain ⟨seek, hseek, hfirst⟩ := receiveBytes_noise_of_seek1 (prm := prm) hlink hrs hn0
    exact ⟨seek, hseek, by simpa [frameStream, commitPayloads] using hfirst⟩
  | cons f frames ih =>
    obtain ⟨seek, hseek, hfirst⟩ := receiveBytes_noise_of_seek1 (prm := prm) hlink hrs hn0
    have hidle : { x with rs := .seekingMarker1, acc := [] } = x := by rw [← hrs, ← hacc]
    have hcommit : receiveBytes prm ([marker1, marker2] ++ f.1.toList) { x with rs := seek } =
        commitPayload prm f.1 x :=
      (receiveBytes_frame (x := { x with rs := seek }) f.1 hlink hseek).trans (congrArg _ hidle)
    obtain ⟨hf, hframes⟩ := List.forall_mem_cons.1 hnoise
    obtain ⟨hlink', hrs', hacc'⟩ := commitPayload_frame prm f.1 x
    obtain ⟨phase, hphase, hrest⟩ :=
      ih (hlink'.trans hlink) (hrs'.trans hrs) (hacc'.trans hacc) hf hframes
    refine ⟨phase, hphase, ?_⟩
    rw [frameStream_cons, receiveBytes_append, hfirst, andThen_of_no_output, receiveBytes_append,
      hcommit, Effect.andThen, hrest]
    rfl

/-- Settles O41: the stream is the run of commits at the level of the block. -/
theorem exactlyTheIntendedFrames : Obligations.ExactlyTheIntendedFrames := by
  intro s n0 frames hlink hrs hacc hn0 hnoise
  obtain ⟨phase, hphase, hstream⟩ :=
    receiveBytes_frameStream (prm := s.params) hlink hrs hacc hn0 hnoise
  refine ⟨s.apply (commitPayloads s.params (frames.map Prod.fst) s.toBlock), phase, hphase,
    ?_, ?_, ?_⟩
  · rw [← execAll_map_commit, List.map_map]
    rfl
  · rw [exec_rx, hstream]
    rfl
  · rw [emitted_apply, commitPayloads_filter_isFrameItem, List.length_map]

/-! ### how many frames a chunk completes (R125) -/

/-- How many bytes of the frame sought, marker and payload, the position stands for: of its 15, those
already received. -/
def progress : ResyncPhase × Nat → Nat
  | (.seekingMarker1, _) => 0
  | (.seekingMarker2, _) => 1
  | (.accumulatingFrame, n) => 2 + n

/-- A byte adds at most one to the progress, and completing a frame spends 15. -/
theorem advance_progress (b : Byte) (pos : ResyncPhase × Nat) :
    15 * (advance b pos).2 + progress (advance b pos).1 ≤ progress pos + 1 := by
  obtain ⟨rs, n⟩ := pos
  cases rs with
  | seekingMarker1 =>
    rw [advance]
    split_ifs <;> simp [progress]
  | seekingMarker2 =>
    rw [advance]
    split_ifs <;> simp [progress]
  | accumulatingFrame =>
    rw [advance]
    split_ifs with hroom
    · simp only [progress]
      omega
    · simp only [progress]
      omega

/-- The same of a byte received while Up, whose effect is that of the table. -/
theorem receiveByte_progress {prm : Params} {x : Block} (hup : x.link = .up) (b : Byte) :
    15 * (receiveByte prm b x).outputs.length + progress (receiveByte prm b x).block.position ≤
      progress x.position + 1 := by
  obtain ⟨hpos, hlen⟩ := Prod.ext_iff.1 (receiveByte_advance (prm := prm) hup b)
  calc 15 * (receiveByte prm b x).outputs.length + progress (receiveByte prm b x).block.position
    _ = 15 * (advance b x.position).2 + progress (advance b x.position).1 := by rw [← hpos, ← hlen]
    _ ≤ progress x.position + 1 := advance_progress b x.position

/-- While Up, 15 bytes are spent on every item that a run of bytes emits. -/
theorem receiveBytes_progress {prm : Params} {x : Block} (hup : x.link = .up) (bytes : List Byte) :
    15 * (receiveBytes prm bytes x).outputs.length +
      progress (receiveBytes prm bytes x).block.position ≤ progress x.position + bytes.length := by
  induction bytes generalizing x with
  | nil => simp [receiveBytes]
  | cons b bs ih =>
    have hfirst := receiveByte_progress (prm := prm) hup b
    have hrest := ih ((receiveByte_link prm b x).trans hup)
    simp only [receiveBytes, Effect.andThen_block, Effect.andThen_outputs, List.length_append,
      List.length_cons]
    omega

/-- The items of a run of bytes are paid for by the progress before it and its bytes, Up or Down. -/
theorem receiveBytes_length_outputs_le {prm : Params} (bytes : List Byte) (x : Block) :
    15 * (receiveBytes prm bytes x).outputs.length ≤ progress x.position + bytes.length := by
  rcases Link.down_or_up x.link with hdown | hup
  · simp [receiveBytes_down hdown]
  · exact (Nat.le_add_right _ _).trans (receiveBytes_progress hup bytes)

/-- With at most 12 bytes stored the frame sought lacks a byte at least (R34). -/
theorem progress_position_le {x : Block} (hcnt : x.cnt ≤ 12) : progress x.position ≤ 14 := by
  rw [Block.position]
  cases x.rs with
  | seekingMarker1 => exact Nat.zero_le 14
  | seekingMarker2 => exact Nat.le_add_left 1 13
  | accumulatingFrame => exact Nat.add_le_add_left hcnt 2

/-- Settles O42: a frame costs 15 bytes, of which at most 14 were received before the chunk, and none in
SeekingMarker1. -/
theorem chunkCompletesBoundedFrames : Obligations.ChunkCompletesBoundedFrames := by
  rintro s t bytes ⟨-, hcount, -⟩ ⟨⟩
  rw [emitted_apply, receiveBytes_filter_isFrameItem]
  have hpaid := receiveBytes_length_outputs_le (prm := s.params) bytes s.toBlock
  refine ⟨?_, fun hrs => ?_⟩
  · have hbefore := progress_position_le (x := s.toBlock) hcount
    omega
  · have hbefore : progress s.toBlock.position = 0 := by simp only [Block.position, hrs, progress]
    omega

end Sys2Proof.Proofs
end

section
/-! Proofs about the window: what WAPPEND, WCLEAR and WSNAP do (R141 to R144), the window as the last C
samples since a clear (R147), and snapshots that repeat (R146). -/

namespace Sys2Proof.Proofs

open Sys2Proof.Machine

/-! ### the three rows of the window (R141 to R144) -/

/-- WAPPEND writes the window alone and emits nothing. -/
theorem exec_wappend (v : Sample) (s : State) :
    exec (.wappend v) s = .next { s with win := appended s.params.capacity s.win v } := by
  simp only [exec, execWAppend, State.apply_silent, appendSample, Block.setWindow]

/-- WCLEAR writes the window alone and answers `Ok`. -/
theorem exec_wclear (s : State) :
    exec .wclear s = .next { s with win := [], out := s.out ++ [.resp .ok] } := rfl

/-- WSNAP answers the snapshot of the window and writes no register. -/
theorem exec_wsnap (s : State) : exec .wsnap s =
    .next { s with out := s.out ++ [.resp (.snapshot (snapshotOf s.win))] } := rfl

/-- A snapshot has one entry for each sample. -/
theorem snapshotOf_length (w : List Sample) : (snapshotOf w).length = w.length := by
  simp only [snapshotOf, List.length_zip, List.length_range, Nat.min_self]

/-- The indices of a snapshot are dense and start at 0 (R145). -/
theorem snapshotOf_map_fst (w : List Sample) :
    (snapshotOf w).map Prod.fst = List.range w.length :=
  List.map_fst_zip (by rw [List.length_range])

/-- The entry at `i` is the sample at `i` with its index, and there is none past the window. -/
theorem snapshotOf_getElem? (w : List Sample) (i : Nat) :
    (snapshotOf w)[i]? = (w[i]?).map fun x => (i, x) := by
  rcases Nat.lt_or_ge i w.length with hin | hout
  · have hsnap : i < (snapshotOf w).length := by rwa [snapshotOf_length]
    rw [List.getElem?_eq_getElem hin, List.getElem?_eq_getElem hsnap]
    simp only [snapshotOf, List.getElem_zip, List.getElem_range, Option.map_some]
  · rw [List.getElem?_eq_none hout, List.getElem?_eq_none (by rwa [snapshotOf_length])]
    rfl

/-- Settles O13, which is the arm of WCLEAR. -/
theorem wClearEmptiesWindow : Obligations.WClearEmptiesWindow := exec_wclear

/-- Settles O14, with the snapshot of the window as the entries. -/
theorem wSnapShowsWindowInOrder : Obligations.WSnapShowsWindowInOrder :=
  fun s => ⟨snapshotOf s.win, exec_wsnap s, snapshotOf_length s.win, snapshotOf_map_fst s.win,
    snapshotOf_getElem? s.win⟩

/-- Settles O15: the two branches of the append, room and full. -/
theorem wAppendAddsOrEvicts : Obligations.WAppendAddsOrEvicts := by
  intro s x
  refine ⟨fun hroom => ?_, fun hfull => ?_⟩
  · rw [exec_wappend, appended_of_room hroom]
  · rw [exec_wappend, appended_of_full hfull]

/-! ### one append after another (R147) -/

/-- The window after appending the samples in order to the window `w`. -/
def appendedAll (capacity : Nat) (w xs : List Sample) : List Sample :=
  xs.foldl (appended capacity) w

@[simp] theorem appendedAll_nil (c : Nat) (w : List Sample) : appendedAll c w [] = w := rfl

@[simp] theorem appendedAll_cons (c : Nat) (w : List Sample) (x : Sample) (xs : List Sample) :
    appendedAll c w (x :: xs) = appendedAll c (appended c w x) xs := rfl

theorem appendedAll_append (c : Nat) (w xs ys : List Sample) :
    appendedAll c w (xs ++ ys) = appendedAll c (appendedAll c w xs) ys := List.foldl_append

/-- Appends do not take a window above its capacity. -/
theorem appendedAll_length_le {c : Nat} (hc : 0 < c) {w : List Sample} (hw : w.length ≤ c)
    (xs : List Sample) : (appendedAll c w xs).length ≤ c := by
  induction xs generalizing w with
  | nil => exact hw
  | cons x xs ih => exact ih (appended_length_le hc w x)

/-- The last `min(n, C)` of `n` samples, oldest first (R147). -/
def lastSamples (capacity : Nat) (xs : List Sample) : List Sample := xs.drop (xs.length - capacity)

theorem lastSamples_length (c : Nat) (xs : List Sample) :
    (lastSamples c xs).length = min xs.length c := by
  rw [lastSamples, List.length_drop]
  omega

/-- One append turns the last samples of a sequence into those of the longer sequence: while there is room
nothing was dropped, afterwards the evicted sample is the one that falls out. -/
theorem appended_lastSamples {c : Nat} (hc : 0 < c) (xs : List Sample) (x : Sample) :
    appended c (lastSamples c xs) x = lastSamples c (xs ++ [x]) := by
  have hlen := lastSamples_length c xs
  rcases Nat.lt_or_ge xs.length c with hroom | hfull
  · have hold : xs.length - c = 0 := by omega
    have hnew : xs.length + 1 - c = 0 := by omega
    rw [appended_of_room (by omega)]
    simp only [lastSamples, List.length_append, List.length_singleton, hold, hnew, List.drop_zero]
  · have hnew : xs.length + 1 - c = xs.length - c + 1 := by omega
    rw [appended_of_full (by omega)]
    simp only [lastSamples, List.length_append, List.length_singleton, hnew, List.drop_drop]
    rw [List.drop_append_of_le_length (by omega)]

/-- Appended to the last samples of `xs`, the samples `ys` leave the last samples of both together. -/
theorem appendedAll_lastSamples {c : Nat} (hc : 0 < c) (xs ys : List Sample) :
    appendedAll c (lastSamples c xs) ys = lastSamples c (xs ++ ys) := by
  induction ys generalizing xs with
  | nil => rw [appendedAll_nil, List.append_nil]
  | cons y ys ih =>
    rw [appendedAll_cons, appended_lastSamples hc, ih, List.append_assoc, List.singleton_append]

/-- From an empty window the appends leave the last samples. -/
theorem appendedAll_empty {c : Nat} (hc : 0 < c) (xs : List Sample) :
    appendedAll c [] xs = lastSamples c xs := by
  simpa [lastSamples] using appendedAll_lastSamples hc [] xs

/-- A run of WAPPEND appends its samples and writes nothing else. -/
theorem execAll_map_wappend (xs : List Sample) (s : State) :
    execAll (xs.map .wappend) s =
      .next { s with win := appendedAll s.params.capacity s.win xs } := by
  induction xs generalizing s with
  | nil => rfl
  | cons x xs ih => simp only [List.map_cons, execAll, exec_wappend, ih, appendedAll_cons]

/-! ### the window follows the TELEM items (R149, R165) -/

/-- A delivered record counts with its sample word (R108). -/
theorem telemSamples_telem (r : Record) : telemSamples [.telem r] = [sampleOf r] := rfl

theorem telemSamples_append (o o' : List Output) :
    telemSamples (o ++ o') = telemSamples o ++ telemSamples o' := List.filterMap_append

/-- Items without a TELEM item have no sample words. -/
theorem telemSamples_eq_nil {items : List Output} (h : ∀ r, Output.telem r ∉ items) :
    telemSamples items = [] := by
  rw [telemSamples, List.filterMap_eq_nil_iff]
  intro o ho
  cases o with
  | telem r => exact absurd ho (h r)
  | tx | decodeError | resp => rfl

/-- The answer of a send has no TELEM item. -/
theorem telemSamples_sendAnswer (bytes : List Byte) (l : Link) :
    telemSamples (sendAnswer bytes l) = [] :=
  telemSamples_eq_nil fun r => by cases l <;> simp [sendAnswer]

/-- The effect appends to the window of `x` exactly the samples of the TELEM items it emits. -/
def AppendsItsSamples (capacity : Nat) (x : Block) (e : Effect) : Prop :=
  e.block.win = appendedAll capacity x.win (telemSamples e.outputs)

/-- An effect that neither writes the window nor emits a TELEM item. -/
theorem AppendsItsSamples.of_untouched {c : Nat} {x : Block} {e : Effect}
    (hwin : e.block.win = x.win) (hout : telemSamples e.outputs = []) :
    AppendsItsSamples c x e := by
  rw [AppendsItsSamples, hout, hwin, appendedAll_nil]

/-- One such effect after another. -/
theorem AppendsItsSamples.andThen {c : Nat} {x : Block} {e f : Effect}
    (he : AppendsItsSamples c x e) (hf : AppendsItsSamples c e.block f) :
    AppendsItsSamples c x ⟨f.block, e.outputs ++ f.outputs⟩ := by
  rw [AppendsItsSamples] at he hf ⊢
  rw [hf, he, telemSamples_append, appendedAll_append]

/-- A commit appends the sample of the record it delivers, and none if it rejects (R165). -/
theorem commitPayload_appendsItsSamples (prm : Params) (p : Payload) (x : Block) :
    AppendsItsSamples prm.capacity x (commitPayload prm p x) := by
  rcases commitPayload_cases prm p x with ⟨-, -, h⟩ | ⟨-, h⟩ <;> rw [h]
  · exact .of_untouched rfl rfl
  · rw [AppendsItsSamples, telemSamples_telem, appendedAll_cons, appendedAll_nil]

/-- A received byte writes the window only through the commit of the frame it completes. -/
theorem receiveByte_appendsItsSamples (prm : Params) (b : Byte) (x : Block) :
    AppendsItsSamples prm.capacity x (receiveByte prm b x) := by
  rcases receiveByte_cases prm b x with h | ⟨-, -, -, h⟩ | ⟨-, -, -, h⟩ | ⟨-, -, h⟩ | ⟨-, -, -, h⟩ |
    ⟨-, -, -, h⟩ <;> rw [h]
  case inr.inr.inr.inr.inr =>
    exact commitPayload_appendsItsSamples prm _ { x with rs := .seekingMarker1, acc := [] }
  all_goals exact .of_untouched rfl rfl

/-- So does a run of received bytes. -/
theorem receiveBytes_appendsItsSamples (prm : Params) (bytes : List Byte) (x : Block) :
    AppendsItsSamples prm.capacity x (receiveBytes prm bytes x) :=
  receiveBytes_rel (fun _ => .of_untouched rfl rfl) .andThen (receiveByte_appendsItsSamples prm) bytes x

/-! ### sequences of events (R146, R147) -/

/-- An instruction that is an event is the row of an `Event` (R85). -/
theorem mem_range_instr {i : Instr} (h : isEvent i = true) : i ∈ Set.range Event.instr := by
  cases i with
  | rxb b => exact ⟨.rxb b, rfl⟩
  | reset => exact ⟨.reset, rfl⟩
  | sendMode mode runMode => exact ⟨.sendMode mode runMode, rfl⟩
  | sendProf a b c d => exact ⟨.sendProf a b c d, rfl⟩
  | wclear => exact ⟨.wclear, rfl⟩
  | wsnap => exact ⟨.wsnap, rfl⟩
  | scur => exact ⟨.scur, rfl⟩
  | connect => exact ⟨.connect, rfl⟩
  | disconnect => exact ⟨.disconnect, rfl⟩
  | _ => cases h

/-- A sequence of instructions that are events is a sequence of events. -/
theorem exists_events {is : List Instr} (h : ∀ i ∈ is, isEvent i = true) :
    ∃ es : List Event, es.map Event.instr = is :=
  (Set.range_list_map Event.instr).ge fun i hi => mem_range_instr (h i hi)

/-- An event that does not clear the window appends to it the samples it delivers. -/
theorem blockStep_appendsItsSamples {prm : Params} {x : Block} {e : Event} {f : Effect}
    (hkeep : clearsWindow e = false) (h : blockStep prm x e = .next f) :
    AppendsItsSamples prm.capacity x f := by
  cases e with
  | rxb b => cases h; exact receiveByte_appendsItsSamples prm b x
  | sendMode mode runMode =>
    simp only [blockStep, sendMode, sendFrame_eq_answer] at h
    split at h <;> cases h
    exact .of_untouched rfl (telemSamples_sendAnswer ..)
  | sendProf =>
    cases h
    rw [sendProf, sendFrame_eq_answer]
    exact .of_untouched rfl (telemSamples_sendAnswer ..)
  | wsnap | scur => cases h; exact .of_untouched rfl rfl
  | reset | connect | disconnect | wclear => cases hkeep

/-- The events that clear the window have no operands to be ill-formed. -/
theorem wellFormed_of_clearsWindow {c : Event} (hclear : clearsWindow c = true) :
    c.instr.wellFormed = true := by
  cases c with
  | reset | connect | disconnect | wclear => rfl
  | rxb | sendMode | sendProf | wsnap | scur => cases hclear

/-- The four rows of R32 that clear the window are the only ones among the events. -/
theorem clearsWindow_eq_false {e : Event} (hwclear : e.instr ≠ .wclear)
    (hconnect : e.instr ≠ .connect) (hdisconnect : e.instr ≠ .disconnect)
    (hreset : e.instr ≠ .reset) : clearsWindow e = false := by
  cases e with
  | wclear => exact absurd rfl hwclear
  | connect => exact absurd rfl hconnect
  | disconnect => exact absurd rfl hdisconnect
  | reset => exact absurd rfl hreset
  | rxb | sendMode | sendProf | wsnap | scur => rfl

/-- An event that clears the window leaves it empty and delivers no sample (R32, R143). -/
theorem blockStep_clears (prm : Params) (x : Block) {c : Event} (hclear : clearsWindow c = true) :
    ∃ f, blockStep prm x c = .next f ∧ f.block.win = [] ∧ telemSamples f.outputs = [] := by
  cases c with
  | reset | connect | disconnect | wclear => exact ⟨_, rfl, rfl, rfl⟩
  | rxb | sendMode | sendProf | wsnap | scur => cases hclear

/-- Well-formed events give a next state one after another (R8, R175). -/
theorem execAll_events_completes {es : List Event} (hwf : ∀ e ∈ es, e.instr.wellFormed = true)
    (s : State) : ∃ t, execAll (es.map Event.instr) s = .next t := by
  induction es generalizing s with
  | nil => exact ⟨s, rfl⟩
  | cons e es ih =>
    rw [List.forall_mem_cons] at hwf
    obtain ⟨u, hu⟩ := (wellFormedInstructionsComplete e.instr s).1 hwf.1
    simpa only [List.map_cons, execAll, hu] using ih hwf.2 u

/-- Events that do not clear the window have one effect together, which appends to it the samples it
delivers. -/
theorem execAll_events_appendsItsSamples {es : List Event} (hkeep : ∀ e ∈ es, clearsWindow e = false)
    {s t : State} (h : execAll (es.map Event.instr) s = .next t) :
    ∃ f, t = s.apply f ∧ AppendsItsSamples s.params.capacity s.toBlock f := by
  induction es generalizing s with
  | nil =>
    cases h
    exact ⟨_, t.apply_silent_self.symm, .of_untouched rfl rfl⟩
  | cons e es ih =>
    rw [List.forall_mem_cons] at hkeep
    simp only [List.map_cons, execAll] at h
    split at h
    case h_1 u hu =>
      rw [exec_event] at hu
      obtain ⟨f, hf, rfl⟩ := applyOutcome_eq_next hu
      obtain ⟨g, rfl, hg⟩ := ih hkeep.2 h
      exact ⟨f.andThen fun _ => g, (s.apply_andThen f fun _ => g).symm,
        (blockStep_appendsItsSamples hkeep.1 hf).andThen hg⟩
    all_goals cases h

/-- After a clear and further events without one, the window holds the last samples delivered. -/
theorem win_after_clear {c : Event} {es : List Event} {s t : State}
    (hclear : clearsWindow c = true) (hkeep : ∀ e ∈ es, clearsWindow e = false)
    (h : execAll ((c :: es).map Event.instr) s = .next t) :
    t.win = lastSamples s.params.capacity (telemSamples (emitted s t)) := by
  obtain ⟨f, hf, hempty, hsilent⟩ := blockStep_clears s.params s.toBlock hclear
  have hfirst : exec c.instr s = .next (s.apply f) := by rw [exec_event, hf]; rfl
  simp only [List.map_cons, execAll, hfirst] at h
  obtain ⟨g, rfl, hg⟩ := execAll_events_appendsItsSamples hkeep h
  have hemitted : emitted s ((s.apply f).apply g) = f.outputs ++ g.outputs :=
    emitted_of_out (List.append_assoc ..)
  rw [hemitted, telemSamples_append, hsilent, List.nil_append,
    ← appendedAll_empty s.params.capacity_pos, ← hempty]
  exact hg

/-- No instruction takes the window above its capacity (R34, R147). -/
theorem ExecutesTo.winCount_le {i : Instr} {s t : State} (h : ExecutesTo s i t)
    (hle : s.winCount ≤ s.params.capacity) : t.winCount ≤ t.params.capacity := by
  have hpos := s.params.capacity_pos
  have hgrow {f : Effect} (hf : AppendsItsSamples s.params.capacity s.toBlock f) :
      (s.apply f).winCount ≤ s.params.capacity := by
    rw [Block.winCount, State.apply_win, hf]
    exact appendedAll_length_le hpos hle _
  cases h with
  | codec | answer | latch => exact hle
  | fresh | clear => exact Nat.zero_le _
  | append v => exact appended_length_le hpos s.win v
  | commit p => exact hgrow (commitPayload_appendsItsSamples ..)
  | receive => exact hgrow (receiveBytes_appendsItsSamples ..)

/-- Settles O16: appends from an empty window leave the last samples, whether they are WAPPEND or the
committed frames of a sequence of events. -/
theorem windowHoldsLastSamples : Obligations.WindowHoldsLastSamples := by
  refine ⟨fun s xs => ⟨_, ?_, rfl, lastSamples_length ..⟩, fun c es s hclear hes => ?_,
    fun p => p.capacity_pos, Nat.zero_le _, fun i s t hle h => (executesTo_of_exec h).winCount_le hle⟩
  · simp only [execAll, exec_wclear, execAll_map_wappend, appendedAll_empty s.params.capacity_pos,
      lastSamples]
  · have hwf : ∀ e ∈ c :: es, e.instr.wellFormed = true := List.forall_mem_cons.2
      ⟨wellFormed_of_clearsWindow hclear, fun e he => (hes e he).2⟩
    obtain ⟨t, ht⟩ := execAll_events_completes hwf s
    have hwin := win_after_clear hclear (fun e he => (hes e he).1) ht
    exact ⟨t, _, ht, rfl, hwin, by rw [Block.winCount, hwin, lastSamples_length]⟩

/-- Settles O17: without a TELEM item the events between append no sample, so both snapshots are of the
same window. -/
theorem snapshotsRepeatWithoutAppend : Obligations.SnapshotsRepeatWithoutAppend := by
  intro is s t his h hnone
  obtain ⟨es, rfl⟩ := exists_events fun i hi => (his i hi).1
  have hkeep : ∀ e ∈ es, clearsWindow e = false := fun e he => by
    obtain ⟨-, hwclear, hconnect, hdisconnect, hreset⟩ := his _ (List.mem_map_of_mem he)
    exact clearsWindow_eq_false hwclear hconnect hdisconnect hreset
  obtain ⟨f, rfl, hf⟩ := execAll_events_appendsItsSamples hkeep h
  rw [emitted_apply] at hnone
  have hwin : (s.apply f).win = s.win := by
    rw [State.apply_win, hf, telemSamples_eq_nil hnone, appendedAll_nil]
  exact ⟨snapshotOf s.win, exec_wsnap s, by rw [exec_wsnap, hwin]⟩

end Sys2Proof.Proofs
end

section
/-! Proofs about the session: what SUPDATE latches (R155), what SCUR answers (R156), and which
instructions can change it (R158). -/

namespace Sys2Proof.Proofs

open Sys2Proof.Machine

/-! ### the two rows of the session (R155, R156) -/

/-- SUPDATE writes the session registers alone and emits nothing. -/
theorem exec_supdate (r : Record) (s : State) :
    exec (.supdate r) s = .next { s with session := some (sessionOf r) } := by
  simp only [exec, execSUpdate, State.apply_silent, updateSession, Block.latch]

/-- SCUR gives its answer and writes no register. -/
theorem exec_scur (s : State) : exec .scur s =
    .next { s with out := s.out ++ [.resp (currentSession s.toBlock)] } := rfl

section Answer

variable {x : Block}

/-- S_VALID is 0 exactly when no session is latched (R27). -/
theorem sValid_eq_false : x.sValid = false ↔ x.session = none := by
  rw [Block.sValid, ← Bool.not_eq_true, Option.not_isSome_iff_eq_none]

/-- Without a latched session SCUR answers `NotConnected`. -/
theorem currentSession_of_none (h : x.session = none) : currentSession x = .notConnected := by
  simp only [currentSession, h]

/-- A latched session is answered by its view. -/
theorem currentSession_of_some {v : Session} (h : x.session = some v) :
    currentSession x = .session (sessionView v) := by
  simp only [currentSession, h]

end Answer

/-- Settles O18: the latched session is `sessionOf` of the record. -/
theorem sUpdateLatchesRecord : Obligations.SUpdateLatchesRecord :=
  fun s r => exec_supdate r s

/-- Settles O19, by whether a session is latched; while Down none is, by invariant 4 of R34. -/
theorem sCurAnswersLastSession : Obligations.SCurAnswersLastSession := by
  intro s
  have hnone (h : s.session = none) :
      exec .scur s = .next { s with out := s.out ++ [.resp .notConnected] } := by
    rw [exec_scur, currentSession_of_none h]
  refine ⟨hnone, fun hinv hlink => ?_, fun v hv => ?_⟩
  · obtain ⟨-, -, hvalid, -⟩ := hinv hlink
    exact hnone (sValid_eq_false.1 hvalid)
  · rw [exec_scur, currentSession_of_some hv]
    rfl

/-! ### who writes the session (R32, R158) -/

/-- The effect keeps the session of `x`, or else delivers a record. -/
def KeepsSessionOrDelivers (x : Block) (e : Effect) : Prop :=
  e.block.session = x.session ∨ ∃ r, Output.telem r ∈ e.outputs

/-- One such effect after another: the session is kept by both, or one of them delivers. -/
theorem KeepsSessionOrDelivers.andThen {x : Block} {e f : Effect}
    (he : KeepsSessionOrDelivers x e) (hf : KeepsSessionOrDelivers e.block f) :
    KeepsSessionOrDelivers x ⟨f.block, e.outputs ++ f.outputs⟩ := by
  rcases hf with hf | ⟨r, hr⟩
  · rcases he with he | ⟨r, hr⟩
    · exact .inl (hf.trans he)
    · exact .inr ⟨r, List.mem_append_left _ hr⟩
  · exact .inr ⟨r, List.mem_append_right _ hr⟩

/-- A rejected frame keeps the session, an accepted one is delivered (R165). -/
theorem commitPayload_keepsSessionOrDelivers (prm : Params) (p : Payload) (x : Block) :
    KeepsSessionOrDelivers x (commitPayload prm p x) := by
  rcases commitPayload_cases prm p x with ⟨-, -, h⟩ | ⟨-, h⟩ <;> rw [h]
  · exact .inl rfl
  · exact .inr ⟨_, List.mem_singleton_self _⟩

/-- A received byte writes the session only through the commit of the frame it completes. -/
theorem receiveByte_keepsSessionOrDelivers (prm : Params) (b : Byte) (x : Block) :
    KeepsSessionOrDelivers x (receiveByte prm b x) := by
  rcases receiveByte_cases prm b x with h | ⟨-, -, -, h⟩ | ⟨-, -, -, h⟩ | ⟨-, -, h⟩ | ⟨-, -, -, h⟩ |
    ⟨-, -, -, h⟩ <;> rw [h]
  case inr.inr.inr.inr.inr =>
    exact commitPayload_keepsSessionOrDelivers prm _ { x with rs := .seekingMarker1, acc := [] }
  all_goals exact .inl rfl

/-- So does a run of received bytes. -/
theorem receiveBytes_keepsSessionOrDelivers (prm : Params) (bytes : List Byte) (x : Block) :
    KeepsSessionOrDelivers x (receiveBytes prm bytes x) :=
  receiveBytes_rel (fun _ => .inl rfl) .andThen (receiveByte_keepsSessionOrDelivers prm) bytes x

/-- The session is written by committed frames, SUPDATE and the fresh instances. -/
theorem ExecutesTo.writer_of_session {i : Instr} {s t : State} (h : ExecutesTo s i t)
    (hne : t.session ≠ s.session) :
    (∃ r, Output.telem r ∈ emitted s t) ∨ (∃ r, i = .supdate r) ∨ i = .connect ∨
      i = .disconnect ∨ i = .reset := by
  cases h with
  | fresh _ _ hi => exact .inr (.inr hi)
  | latch r => exact .inr (.inl ⟨r, rfl⟩)
  | commit p =>
    rw [emitted_apply]
    exact .inl ((commitPayload_keepsSessionOrDelivers ..).resolve_left hne)
  | receive =>
    rw [emitted_apply]
    exact .inl ((receiveBytes_keepsSessionOrDelivers ..).resolve_left hne)
  | codec | answer | clear | append => exact absurd rfl hne

/-- Settles O21, over the cases of exec. -/
theorem sessionChangesOnlyByCommitOrLink : Obligations.SessionChangesOnlyByCommitOrLink :=
  fun _ _ _ hexec => (executesTo_of_exec hexec).writer_of_session

end Sys2Proof.Proofs
end

section
/-! Proofs about the row COMMIT (R165), the sends SENDMODE and SENDPROF with their operand domain (R170,
R171, R175), and the link events CONNECT and DISCONNECT (R168, R169). -/

namespace Sys2Proof.Proofs

open Sys2Proof.Machine

/-! ### the row COMMIT (R165) -/

/-- COMMIT applies the block's commit of the payload. -/
theorem exec_commit (p : Payload) (s : State) :
    exec (.commit p) s = .next (s.apply (commitPayload s.params p s.toBlock)) := rfl

/-- Settles O29: the two branches of the commit; within its capacity the window evicts only when full. -/
theorem commitFollowsEnumPolicy : Obligations.CommitFollowsEnumPolicy := by
  rintro s p _ hwin rfl
  refine ⟨fun herr hreject => ?_, fun haccept => ?_⟩
  · rw [exec_commit, commitPayload_rejected _ herr hreject]
    rfl
  · rw [exec_commit, commitPayload_accepted _ haccept, appended_of_le hwin]
    rfl

/-! ### the sends (R170, R171, R175) -/

/-- SENDPROF answers the send of its format P frame and writes no register. -/
theorem exec_sendProf (a b c d : U16) (s : State) : exec (.sendProf a b c d) s =
    .next { s with out := s.out ++ sendAnswer (frameP a b c d) s.link } := by
  simp only [exec, execSendProf, sendProf, sendFrame_eq_answer]
  rfl

/-- On its operand domain SENDMODE answers the send of its format M frame and writes no register. -/
theorem exec_sendMode_of_defined {m r : Byte} (hm : m ≤ 3#8) (hr : r ≤ 2#8) (s : State) :
    exec (.sendMode m r) s = .next { s with out := s.out ++ sendAnswer (frameM m r) s.link } := by
  have hdef : modeOperandsDefined m r = true := (modeOperandsDefined_iff m r).2 ⟨hm, hr⟩
  simp only [exec, execSendMode, sendMode, hdef, if_true, sendFrame_eq_answer]
  rfl

/-- Outside its operand domain SENDMODE is refused, whatever the state (R175). -/
theorem exec_sendMode_of_undefined {m r : Byte} (hout : 3#8 < m ∨ 2#8 < r) (s : State) :
    exec (.sendMode m r) s = .refused .operandDomain := by
  have hundef : ¬ modeOperandsDefined m r = true := by
    rw [modeOperandsDefined_iff]
    bv_omega
  simp only [exec, execSendMode, sendMode, hundef]
  rfl

/-- SENDPROF while Down is rejected (R186). -/
theorem exec_sendProf_down {s : State} (hlink : s.link = .down) (a b c d : U16) :
    exec (.sendProf a b c d) s =
      .next { s with out := s.out ++ [.resp .sendErrorNotConnected] } := by
  rw [exec_sendProf, hlink]
  rfl

/-- SENDMODE on its operand domain while Down is rejected (R186). -/
theorem exec_sendMode_down {s : State} (hlink : s.link = .down) {m r : Byte} (hm : m ≤ 3#8)
    (hr : r ≤ 2#8) : exec (.sendMode m r) s =
      .next { s with out := s.out ++ [.resp .sendErrorNotConnected] } := by
  rw [exec_sendMode_of_defined hm hr, hlink]
  rfl

/-- Settles O6: with LINK Up the answer is the format M frame written out. -/
theorem sendModeTransmitsOrIsRejected : Obligations.SendModeTransmitsOrIsRejected := by
  intro s m r hm hr
  refine ⟨fun hup => ?_, fun hdown => exec_sendMode_down hdown hm hr⟩
  rw [exec_sendMode_of_defined hm hr, hup]
  rfl

/-- Settles O7: with LINK Up the answer is the format P frame written out. -/
theorem sendProfTransmitsOrIsRejected : Obligations.SendProfTransmitsOrIsRejected := by
  intro s a b c d
  refine ⟨fun hup => ?_, fun hdown => exec_sendProf_down hdown a b c d⟩
  rw [exec_sendProf, hup]
  rfl

/-- Settles O8: inside the domain the send completes, so it is not refused. -/
theorem sendModeRefusedExactlyOutsideDomain : Obligations.SendModeRefusedExactlyOutsideDomain := by
  intro s m r
  refine ⟨fun hrefused => ?_, fun hout => exec_sendMode_of_undefined hout s⟩
  by_contra hin
  rw [not_or, BitVec.not_lt, BitVec.not_lt] at hin
  obtain ⟨hm, hr⟩ := hin
  rw [exec_sendMode_of_defined hm hr] at hrefused
  cases hrefused

/-! ### the link events (R120, R168, R169) -/

/-- CONNECT makes a fresh instance with LINK Up and answers `Ok`. -/
theorem exec_connect (s : State) : exec .connect s =
    .next { s with toBlock := freshInstance .up, out := s.out ++ [.resp .ok] } := rfl

/-- DISCONNECT makes a fresh instance with LINK Down and answers `Ok`. -/
theorem exec_disconnect (s : State) : exec .disconnect s =
    .next { s with toBlock := freshInstance .down, out := s.out ++ [.resp .ok] } := rfl

/-- A byte received while Down is dropped (R120). -/
theorem exec_rxb_down {s : State} (hlink : s.link = .down) (b : Byte) :
    exec (.rxb b) s = .next s := by
  rw [exec_rxb, receiveByte_down hlink, State.apply_silent_self]

/-- Settles O3: the fresh instance written out. -/
theorem connectMakesFreshInstance : Obligations.ConnectMakesFreshInstance := exec_connect

/-- Settles O4: while Down the invariants say that the block is already the fresh instance, and the
state after DISCONNECT has LINK Down. -/
theorem disconnectDiscardsInstance : Obligations.DisconnectDiscardsInstance := by
  intro s
  refine ⟨_, rfl, exec_disconnect s, fun hinv hlink => ?_, exec_rxb_down rfl,
    exec_sendProf_down rfl, fun _ _ => exec_sendMode_down rfl⟩
  have hfresh : s.toBlock = freshInstance .down := ((inv_iff_blockInv s).1 hinv).down hlink
  change { s with toBlock := freshInstance .down, out := _ } = _
  rw [← hfresh]

end Sys2Proof.Proofs
end

section
/-! Proofs about the two exceptions: which items an instruction emits (R185, R186, R191), the frame that a
frame item stands for (R165, R167), and what a rejected or accepted frame leaves (R193, R194). -/

namespace Sys2Proof.Proofs

open Sys2Proof.Machine

/-! ### which items an instruction emits (R185, R186) -/

/-- All that an instruction that may complete a frame can be: COMMIT, or in every state a run of the bytes
it receives. -/
theorem exec_mayCommit_cases {i : Instr} (hcommit : mayCommit i = true) :
    (∃ p, i = .commit p) ∨
      ∀ s, exec i s = .next (s.apply (receiveBytes s.params (receivedBytes i) s.toBlock)) := by
  cases i with
  | commit p => exact .inl ⟨p, rfl⟩
  | rxb b => exact .inr fun s => by rw [exec_rxb, ← receiveBytes_singleton]; rfl
  | rxFrame mode runMode stage fan lamp t1 t2 =>
    exact .inr fun s => by simp only [exec, execRxFrame, ← receiveBytes_append, receivedBytes]
  | rx | telemetry => exact .inr fun _ => rfl
  | _ => cases hcommit

/-- An instruction that may complete a frame is no send. -/
theorem isSend_eq_false_of_mayCommit {i : Instr} (hcommit : mayCommit i = true) :
    isSend i = false := by
  cases i with
  | sendMode | sendProf => cases hcommit
  | _ => rfl

/-- RXB is the only event that may complete a frame (R85). -/
theorem eq_rxb_of_isEvent {i : Instr} (hevent : isEvent i = true) (hcommit : mayCommit i = true) :
    ∃ b, i = .rxb b := by
  cases i with
  | rxb b => exact ⟨b, rfl⟩
  | commit | rx | rxFrame | telemetry => cases hevent
  | _ => cases hcommit

/-- The answer of SCUR is no exception, with and without a session (R156, C9). -/
theorem isExceptionItem_currentSession (x : Block) :
    isExceptionItem (.resp (currentSession x)) = false := by
  cases hsession : x.session with
  | none => rw [currentSession_of_none hsession]; rfl
  | some v => rw [currentSession_of_some hsession]; rfl

section Emitted

variable {i : Instr} {s t : State} {o : Output}

/-- A completed send leaves the block as it is and emits its answer. -/
theorem eq_apply_sendAnswer (hsend : isSend i = true) (h : exec i s = .next t) :
    ∃ bytes, t = s.apply ⟨s.toBlock, sendAnswer bytes s.link⟩ := by
  rcases exec_send_cases hsend with hrefused | ⟨bytes, hnext⟩
  · rw [hrefused] at h
    cases h
  · rw [hnext] at h
    exact ⟨bytes, (Host.Outcome.next.inj h).symm⟩

/-- An instruction that may complete a frame emits frame items only (R189). -/
theorem isFrameItem_of_mayCommit (hcommit : mayCommit i = true) (h : exec i s = .next t)
    (ho : o ∈ emitted s t) : isFrameItem o = true := by
  rcases exec_mayCommit_cases hcommit with ⟨p, rfl⟩ | hnext
  · cases h
    obtain ⟨item, hitem, hout⟩ := commitPayload_out s.params p s.toBlock
    rw [emitted_apply, hout, List.mem_singleton] at ho
    rwa [ho]
  · rw [hnext] at h
    cases h
    rw [emitted_apply] at ho
    exact receiveBytes_out _ _ o ho

/-- Every other instruction that is no send emits neither a frame item nor an exception. -/
theorem plain_of_not_send_of_not_mayCommit (hsend : isSend i = false)
    (hcommit : mayCommit i = false) (h : exec i s = .next t) (ho : o ∈ emitted s t) :
    isFrameItem o = false ∧ isExceptionItem o = false := by
  cases i with
  | sendMode | sendProf => cases hsend
  | commit | rxb | rx | rxFrame | telemetry => cases hcommit
  | setMode mode runMode =>
    rw [exec_setMode] at h
    split at h
    · cases h
      simp at ho
    · cases h
  | setProfile | decodeTelemetry | encTelemetry => cases h; simp at ho
  | supdate | wappend | reset => cases h; simp [resetBlock] at ho
  | connect | disconnect | wclear | wsnap =>
    cases h
    simp only [connectBlock, disconnectBlock, clearWindow, showWindow, emitted_apply,
      Block.respond_outputs, List.mem_singleton] at ho
    rw [ho]
    exact ⟨rfl, rfl⟩
  | scur =>
    cases h
    simp only [showSession, emitted_apply, Block.respond_outputs, List.mem_singleton] at ho
    rw [ho]
    exact ⟨rfl, isExceptionItem_currentSession _⟩

/-- The send error is in the answer of a send exactly while Down (R186). -/
theorem sendError_mem_sendAnswer {bytes : List Byte} {l : Link} :
    Output.resp .sendErrorNotConnected ∈ sendAnswer bytes l ↔ l = .down := by
  cases l <;> simp [sendAnswer]

/-- A frame item is emitted only by an instruction that may complete a frame. -/
theorem mayCommit_of_isFrameItem (h : exec i s = .next t) (ho : o ∈ emitted s t)
    (hframe : isFrameItem o = true) : mayCommit i = true := by
  by_contra hcommit
  rw [Bool.not_eq_true] at hcommit
  cases hsend : isSend i with
  | true =>
    obtain ⟨bytes, rfl⟩ := eq_apply_sendAnswer hsend h
    rw [emitted_apply] at ho
    have hmem : o ∈ (sendAnswer bytes s.link).filter isFrameItem := List.mem_filter.2 ⟨ho, hframe⟩
    rw [filter_isFrameItem_sendAnswer] at hmem
    cases hmem
  | false =>
    obtain ⟨hplain, -⟩ := plain_of_not_send_of_not_mayCommit hsend hcommit h ho
    cases hplain.symm.trans hframe

/-- The send error is emitted only by a send. -/
theorem isSend_of_sendError (h : exec i s = .next t)
    (ho : Output.resp .sendErrorNotConnected ∈ emitted s t) : isSend i = true := by
  by_contra hsend
  rw [Bool.not_eq_true] at hsend
  cases hcommit : mayCommit i with
  | true => cases isFrameItem_of_mayCommit hcommit h ho
  | false => cases (plain_of_not_send_of_not_mayCommit hsend hcommit h ho).2

end Emitted

/-! ### the sends while Down (R186, R195) -/

/-- Settles O10: the send error is emitted by a send alone, and a send's answer holds it, as its one item,
exactly while Down. -/
theorem sendErrorExactlyForSendsWhileDown : Obligations.SendErrorExactlyForSendsWhileDown := by
  intro i s t h
  have hiff : Output.resp .sendErrorNotConnected ∈ emitted s t ↔
      isSend i = true ∧ s.link = .down := by
    constructor
    · intro ho
      have hsend := isSend_of_sendError h ho
      obtain ⟨bytes, rfl⟩ := eq_apply_sendAnswer hsend h
      rw [emitted_apply] at ho
      exact ⟨hsend, sendError_mem_sendAnswer.1 ho⟩
    · rintro ⟨hsend, hdown⟩
      obtain ⟨bytes, rfl⟩ := eq_apply_sendAnswer hsend h
      rw [emitted_apply]
      exact sendError_mem_sendAnswer.2 hdown
  refine ⟨hiff, fun ho => ?_⟩
  obtain ⟨hsend, hdown⟩ := hiff.1 ho
  obtain ⟨bytes, rfl⟩ := eq_apply_sendAnswer hsend h
  rw [hdown]
  rfl

/-- Settles O9: a well-formed send completes, with the answer that it has while Down. -/
theorem rejectedSendLeavesStateUnchanged : Obligations.RejectedSendLeavesStateUnchanged := by
  intro i s hsend hwf hdown
  obtain ⟨t, ht⟩ := (wellFormedInstructionsComplete i s).1 hwf
  obtain ⟨bytes, rfl⟩ := eq_apply_sendAnswer hsend ht
  rw [ht, hdown]
  rfl

/-! ### the frame that a frame item stands for (R165, R167, R185) -/

/-- The item of a completed frame with the payload `p`: its rejection or its record (R165). -/
def frameItem (prm : Params) (p : Payload) : Output :=
  if rejects prm (decodePayload prm.boolRule p) then
    .decodeError .invalidEnumValue (decodePayload prm.boolRule p).err
  else .telem (decodePayload prm.boolRule p)

/-- A commit emits the item of its payload and nothing else. -/
theorem commitPayload_outputs (prm : Params) (p : Payload) (x : Block) :
    (commitPayload prm p x).outputs = [frameItem prm p] := by
  rw [commitPayload, frameItem]
  split <;> rfl

section Item

variable {prm : Params} {p : Payload}

/-- The item is an error only under REJECT, and then it carries the flags of the frame, some of which is
set. -/
theorem frameItem_eq_decodeError {c : DecodeErrorCode} {e : ErrFlags}
    (h : frameItem prm p = .decodeError c e) :
    prm.enumPolicy = .reject ∧ e ≠ 0 ∧ e = (decodePayload prm.boolRule p).err := by
  rw [frameItem] at h
  split at h
  case isTrue hrejects =>
    obtain ⟨herr, hreject⟩ := (rejects_iff _ _).1 hrejects
    cases h
    exact ⟨hreject, herr, rfl⟩
  case isFalse => cases h

/-- The item delivers no other record than the frame's, and under REJECT only one without a flag. -/
theorem frameItem_eq_telem {r : Record} (h : frameItem prm p = .telem r) :
    (prm.enumPolicy = .reject → r.err = 0) ∧ r = decodePayload prm.boolRule p := by
  rw [frameItem] at h
  split at h
  case isTrue => cases h
  case isFalse haccepts =>
    cases h
    exact ⟨fun hreject => by_contra fun herr => haccepts ((rejects_iff _ _).2 ⟨herr, hreject⟩), rfl⟩

end Item

/-- A received byte keeps CNT at most 12 (invariant 2 of R34). -/
theorem receiveByte_cnt_le {x : Block} (hcnt : x.cnt ≤ 12) (prm : Params) (b : Byte) :
    (receiveByte prm b x).block.cnt ≤ 12 := by
  rw [Block.cnt] at hcnt ⊢
  rcases receiveByte_cases prm b x with h | ⟨-, -, -, h⟩ | ⟨-, -, -, h⟩ | ⟨-, -, h⟩ |
    ⟨-, -, hroom, h⟩ | ⟨-, -, -, h⟩ <;> rw [h]
  case inr.inr.inl => exact Nat.zero_le 12
  case inr.inr.inr.inr.inl =>
    rw [List.length_append]
    exact Nat.add_le_add_right hroom 1
  case inr.inr.inr.inr.inr =>
    obtain ⟨-, -, hacc⟩ := commitPayload_frame prm (payloadOf (x.acc ++ [b]))
      { x with rs := .seekingMarker1, acc := [] }
    rw [hacc]
    exact Nat.zero_le 12
  all_goals exact hcnt

/-- The byte `b` arrives in `x` as the 13th byte of a frame with the payload `p` (R124). -/
structure FillsFrame (b : Byte) (x : Block) (p : Payload) : Prop where
  link : x.link = .up
  phase : x.rs = .accumulatingFrame
  cnt : x.cnt = 12
  payload : p.toList = x.acc ++ [b]

/-- An item of a received byte is the item of the frame that the byte fills. -/
theorem fillsFrame_of_mem {prm : Params} {b : Byte} {x : Block} {o : Output} (hcnt : x.cnt ≤ 12)
    (ho : o ∈ (receiveByte prm b x).outputs) : ∃ p, FillsFrame b x p ∧ o = frameItem prm p := by
  rcases receiveByte_cases prm b x with h | ⟨-, -, -, h⟩ | ⟨-, -, -, h⟩ | ⟨-, -, h⟩ | ⟨-, -, -, h⟩ |
    ⟨hlink, hrs, hfull, h⟩ <;> rw [h] at ho
  case inr.inr.inr.inr.inr =>
    have hcnt12 : x.acc.length = 12 := Nat.le_antisymm hcnt hfull
    rw [commitPayload_outputs, List.mem_singleton] at ho
    exact ⟨payloadOf (x.acc ++ [b]),
      ⟨hlink, hrs, hcnt12, toList_payloadOf _ (by rw [List.length_append, hcnt12]; rfl)⟩, ho⟩
  all_goals cases ho

/-- An item of a run of bytes is the item of a frame that one of the bytes fills, in the block to which the
bytes before it lead. -/
theorem exists_fillsFrame_of_mem {prm : Params} {bytes : List Byte} {x : Block} {o : Output}
    (hcnt : x.cnt ≤ 12) (ho : o ∈ (receiveBytes prm bytes x).outputs) :
    ∃ (before after : List Byte) (b : Byte) (p : Payload), bytes = before ++ b :: after ∧
      FillsFrame b (receiveBytes prm before x).block p ∧ o = frameItem prm p := by
  induction bytes generalizing x with
  | nil => cases ho
  | cons b bs ih =>
    rw [receiveBytes, Effect.andThen_outputs, List.mem_append] at ho
    rcases ho with hfirst | hrest
    · obtain ⟨p, hfills, hitem⟩ := fillsFrame_of_mem hcnt hfirst
      exact ⟨[], bs, b, p, rfl, hfills, hitem⟩
    · obtain ⟨before, after, c, p, rfl, hfills, hitem⟩ := ih (receiveByte_cnt_le hcnt prm b) hrest
      exact ⟨b :: before, after, c, p, rfl, hfills, hitem⟩

/-- Every frame item that an instruction emits is the item of a frame that it completes. -/
theorem completesFrame_of_isFrameItem {i : Instr} {s t : State} {o : Output} (hcnt : s.InvCount)
    (h : exec i s = .next t) (ho : o ∈ emitted s t) (hframe : isFrameItem o = true) :
    ∃ p, CompletesFrame i s p ∧ o = frameItem s.params p := by
  rcases exec_mayCommit_cases (mayCommit_of_isFrameItem h ho hframe) with ⟨p, rfl⟩ | hnext
  · cases h
    rw [emitted_apply, commitPayload_outputs, List.mem_singleton] at ho
    exact ⟨p, .inl rfl, ho⟩
  · rw [hnext] at h
    cases h
    rw [emitted_apply] at ho
    obtain ⟨before, after, b, p, hbytes, hfills, hitem⟩ := exists_fillsFrame_of_mem hcnt ho
    exact ⟨p, .inr ⟨before, after, b, _, hbytes, exec_rx before s, hfills.link, hfills.phase,
      hfills.cnt, hfills.payload⟩, hitem⟩

/-- Settles O32: a frame item is that of a completed frame, whose kind follows the policy. -/
theorem decodeErrorOnlyUnderReject : Obligations.DecodeErrorOnlyUnderReject := by
  intro i s t hcnt h
  constructor
  · intro c e ho
    obtain ⟨p, hcompletes, hitem⟩ := completesFrame_of_isFrameItem hcnt h ho rfl
    obtain ⟨hreject, hne, herr⟩ := frameItem_eq_decodeError hitem.symm
    exact ⟨hreject, hne, p, hcompletes, herr⟩
  · intro r ho
    obtain ⟨p, hcompletes, hitem⟩ := completesFrame_of_isFrameItem hcnt h ho rfl
    obtain ⟨herr, hr⟩ := frameItem_eq_telem hitem.symm
    exact ⟨herr, p, hcompletes, hr⟩

/-! ### one exception at most in one event (R191) -/

/-- The answer of a send holds at most one exception. -/
theorem length_filter_isExceptionItem_sendAnswer_le (bytes : List Byte) (l : Link) :
    ((sendAnswer bytes l).filter isExceptionItem).length ≤ 1 := by
  cases l with
  | down => exact Nat.le_refl 1
  | up =>
    have hnone : (sendAnswer bytes .up).filter isExceptionItem = [] := by
      simp [sendAnswer, isExceptionItem]
    rw [hnone]
    exact Nat.zero_le 1

/-- A received byte emits at most one item. -/
theorem length_receiveByte_outputs_le (prm : Params) (b : Byte) (x : Block) :
    (receiveByte prm b x).outputs.length ≤ 1 := by
  rcases receiveByte_out prm b x with h | ⟨o, -, h⟩ <;> rw [h]
  · exact Nat.zero_le 1
  · exact Nat.le_refl 1

/-- An event emits at most one exception and at most one frame item: a send its answer, RXB at most one
item, any other event none of either. -/
theorem length_filter_emitted_le {i : Instr} {s t : State} (hevent : isEvent i = true)
    (h : exec i s = .next t) :
    ((emitted s t).filter isExceptionItem).length ≤ 1 ∧
      ((emitted s t).filter isFrameItem).length ≤ 1 := by
  cases hsend : isSend i with
  | true =>
    obtain ⟨bytes, rfl⟩ := eq_apply_sendAnswer hsend h
    rw [emitted_apply, filter_isFrameItem_sendAnswer]
    exact ⟨length_filter_isExceptionItem_sendAnswer_le .., Nat.zero_le 1⟩
  | false =>
    cases hcommit : mayCommit i with
    | true =>
      obtain ⟨b, rfl⟩ := eq_rxb_of_isEvent hevent hcommit
      cases h
      rw [emitted_apply]
      have hone := length_receiveByte_outputs_le s.params b s.toBlock
      exact ⟨(List.length_filter_le ..).trans hone, (List.length_filter_le ..).trans hone⟩
    | false =>
      have hplain {o : Output} (ho : o ∈ emitted s t) :=
        plain_of_not_send_of_not_mayCommit hsend hcommit h ho
      rw [List.filter_eq_nil_iff.2 fun o ho => by simp [(hplain ho).2],
        List.filter_eq_nil_iff.2 fun o ho => by simp [(hplain ho).1]]
      exact ⟨Nat.zero_le 1, Nat.zero_le 1⟩

/-- Settles O33: the two counts, and which instruction emits which exception. -/
theorem atMostOneExceptionPerEvent : Obligations.AtMostOneExceptionPerEvent := by
  intro i s t hevent h
  obtain ⟨hexceptions, hframes⟩ := length_filter_emitted_le hevent h
  exact ⟨hexceptions, hframes,
    fun _ _ ho => eq_rxb_of_isEvent hevent (mayCommit_of_isFrameItem h ho rfl),
    isSend_of_sendError h⟩

/-! ### the error codes (R187) -/

/-- The table of R187, with an item of each row: the two exceptions have the codes 1 and 2, all other
items the code 0. -/
theorem errCode_cases (o : Output) :
    (∃ e, o = .decodeError .invalidEnumValue e ∧ errCode o = 1) ∨
      (o = .resp .sendErrorNotConnected ∧ errCode o = 2) ∨
      (isExceptionItem o = false ∧ errCode o = 0) := by
  cases o with
  | tx | telem => exact .inr (.inr ⟨rfl, rfl⟩)
  | decodeError code e =>
    cases code
    exact .inl ⟨e, rfl, rfl⟩
  | resp r =>
    cases r with
    | sendErrorNotConnected => exact .inr (.inl ⟨rfl, rfl⟩)
    | ok | notConnected | session | snapshot => exact .inr (.inr ⟨rfl, rfl⟩)

/-- Settles O28, row by row of the table of R187. -/
theorem errorCodesOfOutputs : Obligations.ErrorCodesOfOutputs := by
  intro o
  rcases errCode_cases o with ⟨e, rfl, hcode⟩ | ⟨rfl, hcode⟩ | ⟨hplain, hcode⟩
  · simp [hcode, isExceptionItem]
  · simp [hcode, isExceptionItem]
  · have hnoDecodeError : ¬ ∃ e, o = .decodeError .invalidEnumValue e := by
      rintro ⟨e, rfl⟩
      cases hplain
    have hnoSendError : o ≠ .resp .sendErrorNotConnected := by
      rintro rfl
      cases hplain
    simp [hcode, hplain, hnoDecodeError, hnoSendError]

/-! ### what a completed frame leaves (R193, R194) -/

/-- Settles O30: the 13th byte is the commit of the frame, which the policy rejects. -/
theorem rejectedFrameLeavesOnlyError : Obligations.RejectedFrameLeavesOnlyError := by
  intro s b p hlink hrs hcnt hp hreject herr
  rw [exec_rxb_complete hlink hrs hcnt hp, exec_commit, commitPayload_rejected _ herr hreject]
  rfl

/-- Settles O31: the 13th byte is the commit of the frame, which the policy accepts; the record's enum bytes
are the payload's first three. -/
theorem unknownEnumFrameIsCommitted : Obligations.UnknownEnumFrameIsCommitted := by
  rintro s b p _ hlink hrs hcnt hwin hp hunknown rfl -
  obtain ⟨-, haccepted⟩ :=
    commitFollowsEnumPolicy { s with rs := .seekingMarker1, acc := [] } p _ hwin rfl
  rw [exec_rxb_complete hlink hrs hcnt hp, haccepted (.inr hunknown)]
  rfl

end Sys2Proof.Proofs
end

section
/-! Proofs about RESET (R205) and how it compares with the link events CONNECT and DISCONNECT (R206). -/

namespace Sys2Proof.Proofs

open Sys2Proof.Machine

/-- RESET makes a fresh instance with LINK Down, and is silent: only the block is written. -/
theorem exec_reset (s : State) : exec .reset s = .next { s with toBlock := freshInstance .down } :=
  congrArg Host.Outcome.next (s.apply_silent (freshInstance .down))

/-- Settles O2: the fresh instance written out. -/
theorem resetMakesFreshInstance : Obligations.ResetMakesFreshInstance := exec_reset

/-- Settles O5: all three leave a fresh instance, RESET and DISCONNECT the same one, and the response is
the only item. -/
theorem resetConnectDisconnectDifferInLink : Obligations.ResetConnectDisconnectDifferInLink := fun s =>
  ⟨{ s with toBlock := freshInstance .down }, exec_reset s, rfl, holdsResetValues_of_fresh rfl,
    exec_disconnect s, exec_connect s⟩

end Sys2Proof.Proofs
end
